-- ==== Sys2Proof/Word.lean ====
section
/-! DEFINITION. The words of the SX4 and the one container of its sparse state: plain types only. -/

namespace Sys2Proof

/-- A byte (R5). -/
abbrev Byte := BitVec 8
/-- A 32-bit word: counters, queue indices, lanes (R323, R106, R164). -/
abbrev W32 := BitVec 32
/-- A 64-bit word: scalar registers, addresses, detail words (R84, Table TD-3, R330). -/
abbrev W64 := BitVec 64

/-- A sparse table by number: entries with rising keys, none equal to the default of its key.
Every large, mostly empty piece of state (memory, contexts, counters, objects) is one of these. -/
abbrev Table (α : Type) := List (Nat × α)

end Sys2Proof
end

