-- ==== Sys2Proof/Syntax.lean ====
section
/-! DEFINITION. The commands of the SX4: one constructor of `Instr` per row of spec/opcode_table.json, with the row's operands. -/

namespace Sys2Proof

/-- A hardware queue Q0 to Q31 (R106). -/
abbrev QueueId := Fin 32
/-- A bed 0 to 3. -/
abbrev Bed := Fin 4
/-- A partition P0 to P7 (R281). -/
abbrev Part := Fin 8
/-- A Trellis port L0 to L7 (R253). -/
abbrev Port := Fin 8
/-- An Almanac entry index (R33). -/
abbrev EntryId := Fin 1024
/-- A power domain D0 to D49 (R360). -/
abbrev DomainId := Fin 50
/-- A matrix master M0 to M13 (Table MM-2). -/
abbrev Master := Fin 14
/-- A Danto register field (Table TD-5). -/
abbrev Reg := BitVec 5
/-- A Danto immediate (Table TD-5). -/
abbrev Imm := BitVec 41

/-- A thread context of this SX4: bed and context (R79). -/
structure Thread where
  bed : Bed
  ctx : Fin 64
  deriving DecidableEq, Repr

/-- The two pins an epoch source may use (R26). -/
inductive RefPin where
  | epochRef
  | ppsIn
  deriving DecidableEq, Repr

/-- A port of a matrix target: the target T0 to T9 and its port number (Table MM-2, R227). -/
structure TargetPort where
  target : Fin 10
  port : Fin 8
  deriving DecidableEq, Repr

/-- The transport by which a KPP request entered the system (R304). -/
inductive Transport where
  | can
  | mailbox
  deriving DecidableEq, Repr

/-- A KPP request after its command byte (Table KP-2): `length` is the number of bytes received. -/
structure KppRequest where
  transport : Transport
  client : BitVec 8
  txn : BitVec 8
  tgt : BitVec 8
  index : BitVec 16
  sub : BitVec 8
  len : BitVec 8
  payload : List Byte
  length : Nat
  deriving DecidableEq, Repr

/-- Identity of a client table entry (R308). -/
structure ClientKey where
  chip : BitVec 7
  transport : Transport
  client : BitVec 8
  deriving DecidableEq, Repr

/-- Atomic operations (R96, Table TD-7). -/
inductive AtomicOp where
  | add
  | swap
  | cas
  deriving DecidableEq, Repr

/-- A Trellis packet header and its data (Table TL-2). The byte layout of the atomic operands is not
given by the spec, so the packet carries the operation and its operands as fields. -/
structure Packet where
  dest : BitVec 7
  src : BitVec 7
  part : Part
  error : Bool
  qos : BitVec 4
  tag : BitVec 16
  addr : BitVec 56
  len : BitVec 16
  data : List Byte
  atomic : AtomicOp
  operand : W64
  compare : W64
  deriving DecidableEq, Repr

/-- Decisions of a commit group (R274 to R276). -/
inductive Decision where
  | flip
  | void
  | undecided
  deriving DecidableEq, Repr

/-- A VC3 step message: VOTE, DECIDE, QUERY or ANSWER (Table TL-3). Its byte layout is not given. -/
structure StepMsg where
  dest : BitVec 7
  src : BitVec 7
  part : Part
  epoch : BitVec 48
  decision : Decision
  deriving DecidableEq, Repr

/-- A KPP_FWD or KPP_RSP packet (Table KP-6): the command byte of the frame stands in `cmd`. -/
structure KppPacket where
  dest : BitVec 7
  src : BitVec 7
  cmd : BitVec 8
  frame : KppRequest
  deriving DecidableEq, Repr

/-- What a control flit carries (R255). The INIT exchange (R267) carries the sender's chip ID and port number and its
buffer sizes, VC0 first; a delay probe carries the sender's cycle count, and an echo returns a probe's count with the
cycles it was held (R268). `arrival` is the cycle of the codeword boundary at which a received flit came. -/
structure ControlFlit where
  ack : BitVec 12
  nak : Bool
  returned : List (BitVec 16)
  init : Option (BitVec 7 × BitVec 3) := none
  sizes : List Nat := []
  probe : Option Nat := none
  echoes : List (Nat × Nat) := []
  arrival : Nat := 0
  deriving DecidableEq, Repr

/-- What the AUDIT packet carries per virtual channel (R262). -/
structure AuditMsg where
  held : List (BitVec 16)
  returned : List (BitVec 16)
  deriving DecidableEq, Repr

/-- The object of a queue configuration write (Table QD-2). -/
inductive QueueObject where
  | binding
  | ringBase
  | completionBase
  deriving DecidableEq, Repr

/-- A request on a thread context by opcodes 0x78 to 0x7F (Table TD-7): from a thread it faults; the
Keeper starts, stops and inspects contexts with it. -/
inductive Privileged where
  | fromThread (word : W64)
  | keeperStart (part : Part) (pc : W64)
  | keeperStop
  | keeperInspect
  deriving DecidableEq, Repr

/-- Fields of the host port's PCIe configuration space that the spec names (R337, R342): the class code, the MSI-X
capability's control word and the AER status. -/
inductive ConfigField where
  | classCode
  | msixControl
  | aerStatus
  deriving DecidableEq, Repr

/-- Where a register write is aimed (R7, R234, R339, R341). -/
inductive RegSpace where
  /-- Region 3 of the global address space, by a matrix master on behalf of a partition, or device-wide. -/
  | region3 (m : Master) (part : Option Part)
  /-- BAR0 of the host port. -/
  | bar0
  /-- A queue page of BAR2. -/
  | bar2
  /-- A host read of BAR0 or of a BAR2 page: so many bytes (R339, R341). -/
  | bar0Read (n : Nat)
  | bar2Read (n : Nat)
  /-- A field of the host port's configuration space (R337, R342), and a host read of one. -/
  | config (f : ConfigField)
  | configRead (f : ConfigField)
  deriving DecidableEq, Repr

/-- The host's access to BAR4 (R340). -/
inductive HostAccess where
  | read (len : Nat)
  | write (data : List Byte)
  deriving DecidableEq, Repr

/-- Which host ring register a write names (Table HP-6). -/
inductive HostRingReg where
  | base
  | size
  deriving DecidableEq, Repr

/-- Which trace ring object a write names (Table OD-7). -/
inductive TraceRingReg where
  | base
  | size
  deriving DecidableEq, Repr

/-- Why the PCIe link left L0 (R356). -/
inductive LinkLoss where
  | failure
  | powerManagement
  deriving DecidableEq, Repr

/-- How the host completed a request with an error (R357). -/
inductive HostError where
  | unsupported
  | abort
  | poisoned
  | timeout
  deriving DecidableEq, Repr

/-- The straps sampled at PORST_N rising (R381). -/
structure Straps where
  chipId : BitVec 7
  bootSel : BitVec 2
  testN : Bool
  deriving DecidableEq, Repr

/-- How a warm reset is asked for (R379). -/
inductive ResetCause where
  | pin
  | object
  deriving DecidableEq, Repr

/-- Which supply loss comes about (R391). -/
inductive SupplyLossKind where
  /-- VDD_AON or VDDIO is lost while the other supplies stand. -/
  | alwaysOn
  /-- The supplies are removed. -/
  | removed
  deriving DecidableEq, Repr

/-- Standard TAP instructions (R404). -/
inductive TapInstr where
  | bypass
  | samplePreload
  | extest
  | extestPulse
  | extestTrain
  deriving DecidableEq, Repr

/-- An operation of the JTAG TAP (R404). -/
inductive JtagOp where
  | trstLow
  | trstHigh
  | instruction (i : TapInstr)
  | preload (cells : List Bool)
  | readRegister (off : Nat) (len : Nat)
  | writeRegister (off : Nat) (data : List Byte)
  | readSram (off : Nat) (len : Nat)
  | writeSram (off : Nat) (data : List Byte)
  | manufacturingTest
  deriving DecidableEq, Repr

/-- The commands: the rows of spec/opcode_table.json in the table's order. -/
inductive Instr where
  -- Epoch Tracker
  | epochRefEdge (t : Nat)
  | filteredPulse (pin : RefPin)
  | ppsInEdge (t : Nat)
  | predictedEdge
  | windowClose
  | trackerStart
  | hostEpochMark (bytes : List Byte)
  | tickSend
  | tick (port : Port) (seq : BitVec 12) (epoch : BitVec 48) (phase : BitVec 20) (corr : W32) (arrival : Nat)
  -- Almanac
  | ingestCutoff (k : EntryId) (t : Nat)
  | stepOpen (k : EntryId) (t : Nat)
  | almanacRelease (k : EntryId) (t : Nat)
  | almanacSignal (k : EntryId) (t : Nat)
  | stepCommit (k : EntryId) (t : Nat)
  | almanacPublish (k : EntryId) (t : Nat)
  | timerStart (k : EntryId) (t : Nat)
  | timerStop (k : EntryId) (t : Nat)
  | almanacWake (k : EntryId) (t : Nat)
  | almanacRest (k : EntryId) (t : Nat)
  | prefetch (k : EntryId) (t : Nat)
  | timerExpire (n : Fin 32)
  | almanacExchangeRequest (page : BitVec 8)
  | almanacExchangeCancel
  | pageValidationDone
  -- Streams
  | streamTableBaseWrite (base : W64)
  | stateIn (q : QueueId)
  | stateInCreate (q : QueueId)
  | stateOut (q : QueueId)
  | stateOutEnd (q : QueueId)
  | stepBind (q : QueueId)
  | exportRecord (q : QueueId)
  | importRecord (q : QueueId)
  | prefetchSwapInDone (stream : BitVec 18)
  -- Beds and movers
  | matmul (q : QueueId)
  | matmulRaw (q : QueueId)
  | matmulCombine (q : QueueId)
  | element (q : QueueId)
  | scanPrefixSum (q : QueueId)
  | scanSegmentedSum (q : QueueId)
  | scanAffine (q : QueueId)
  | reduce (q : QueueId)
  | reduceSoftMaxThreePass (q : QueueId)
  | reduceSoftMaxTwoPass (q : QueueId)
  | cacheFill (q : QueueId)
  | cacheEvict (q : QueueId)
  | tableLoad (q : QueueId)
  | copy (q : QueueId)
  | fill (q : QueueId)
  | fence (q : QueueId)
  | signal (q : QueueId)
  | nop (q : QueueId)
  | publish (q : QueueId)
  | hostRingWrite (q : QueueId)
  | ingest (q : QueueId) (batch : List Byte)
  | bufferGrant (q : QueueId)
  | descriptorEnd (q : QueueId)
  | doorbell (q : QueueId) (offset : Fin 64) (width : Fin 9) (value : W64)
  | heldModeSet (q : QueueId)
  | heldModeClear (q : QueueId)
  | queueConfigWrite (o : QueueObject) (q : QueueId) (value : W64)
  -- Danto: integer ALU
  | add (th : Thread) (d a b : Reg)
  | sub (th : Thread) (d a b : Reg)
  | and (th : Thread) (d a b : Reg)
  | or (th : Thread) (d a b : Reg)
  | xor (th : Thread) (d a b : Reg)
  | shl (th : Thread) (d a b : Reg)
  | shr (th : Thread) (d a b : Reg)
  | sra (th : Thread) (d a b : Reg)
  | mul (th : Thread) (d a b : Reg)
  | mulh (th : Thread) (d a b : Reg)
  | min (th : Thread) (d a b : Reg)
  | max (th : Thread) (d a b : Reg)
  | slt (th : Thread) (d a b : Reg)
  | sltu (th : Thread) (d a b : Reg)
  | addi (th : Thread) (d a : Reg) (i : Imm)
  | andi (th : Thread) (d a : Reg) (i : Imm)
  | ori (th : Thread) (d a : Reg) (i : Imm)
  | xori (th : Thread) (d a : Reg) (i : Imm)
  | shli (th : Thread) (d a : Reg) (i : Imm)
  | shri (th : Thread) (d a : Reg) (i : Imm)
  | srai (th : Thread) (d a : Reg) (i : Imm)
  | muli (th : Thread) (d a : Reg) (i : Imm)
  | mini (th : Thread) (d a : Reg) (i : Imm)
  | maxi (th : Thread) (d a : Reg) (i : Imm)
  | slti (th : Thread) (d a : Reg) (i : Imm)
  | sltui (th : Thread) (d a : Reg) (i : Imm)
  | lih (th : Thread) (d : Reg) (i : Imm)
  -- Danto: loads, stores, atomics
  | ld8 (th : Thread) (d a : Reg) (i : Imm)
  | ld16 (th : Thread) (d a : Reg) (i : Imm)
  | ld32 (th : Thread) (d a : Reg) (i : Imm)
  | ld64 (th : Thread) (d a : Reg) (i : Imm)
  | lds8 (th : Thread) (d a : Reg) (i : Imm)
  | lds16 (th : Thread) (d a : Reg) (i : Imm)
  | lds32 (th : Thread) (d a : Reg) (i : Imm)
  | st8 (th : Thread) (a b : Reg) (i : Imm)
  | st16 (th : Thread) (a b : Reg) (i : Imm)
  | st32 (th : Thread) (a b : Reg) (i : Imm)
  | st64 (th : Thread) (a b : Reg) (i : Imm)
  | aadd32 (th : Thread) (d a b : Reg) (i : Imm)
  | aadd64 (th : Thread) (d a b : Reg) (i : Imm)
  | aswap32 (th : Thread) (d a b : Reg) (i : Imm)
  | aswap64 (th : Thread) (d a b : Reg) (i : Imm)
  | acas32 (th : Thread) (d a b : Reg) (i : Imm)
  | acas64 (th : Thread) (d a b : Reg) (i : Imm)
  | accessResponse (th : Thread) (n : Nat)
  -- Danto: branches
  | beq (th : Thread) (a b : Reg) (i : Imm)
  | bne (th : Thread) (a b : Reg) (i : Imm)
  | blt (th : Thread) (a b : Reg) (i : Imm)
  | bge (th : Thread) (a b : Reg) (i : Imm)
  | bltu (th : Thread) (a b : Reg) (i : Imm)
  | bgeu (th : Thread) (a b : Reg) (i : Imm)
  | jal (th : Thread) (d : Reg) (i : Imm)
  | jalr (th : Thread) (d a : Reg) (i : Imm)
  -- Danto: queues, counters, epoch, summaries, thread control, fences
  | qput (th : Thread) (d a b : Reg) (i : Imm)
  | qputx (th : Thread) (d a b : Reg) (i : Imm)
  | qputs (th : Thread) (d a b : Reg) (i : Imm)
  | qcred (th : Thread) (d a : Reg)
  | qwait (th : Thread) (a : Reg) (i : Imm)
  | cinc (th : Thread) (a b : Reg) (i : Imm)
  | cwait (th : Thread) (a b : Reg) (i : Imm)
  | cread (th : Thread) (d a : Reg) (i : Imm)
  | ewait (th : Thread) (a b : Reg)
  | eread (th : Thread) (d : Reg) (i : Imm)
  | mget (th : Thread) (d : Reg) (i : Imm)
  | mclr (th : Thread) (i : Imm)
  | spawn (th : Thread) (d a b : Reg) (i : Imm)
  | yield (th : Thread)
  | park (th : Thread)
  | halt (th : Thread)
  | tid (th : Thread) (d : Reg)
  | fenceL (th : Thread)
  | fenceG (th : Thread)
  | privilegedOpcode (th : Thread) (op : Privileged)
  | waitEnded (th : Thread)
  -- Matrix and memories
  | portGrant (port : TargetPort)
  | windowWrite (m : Master) (w : Fin 64) (off : Fin 32) (bytes : List Byte)
  | registerSlicesWrite (viaDictionary : Bool) (m : Master) (off : Fin 18) (bytes : List Byte)
  | cacheWriteBackStart
  | cacheWriteBackDone
  | dramTraining (pass : BitVec 16)
  | alertPost (th : Thread) (size : Nat) (word : W64)
  -- Trellis
  | codewordUncorrectable (l : Port)
  | controlFlit (l : Port) (f : ControlFlit)
  | replayTimeout (l : Port)
  | rdReq (l : Port) (seq : BitVec 12) (p : Packet)
  | wrReq (l : Port) (seq : BitVec 12) (p : Packet)
  | atReq (l : Port) (seq : BitVec 12) (p : Packet)
  | rdRsp (l : Port) (seq : BitVec 12) (p : Packet)
  | wrRsp (l : Port) (seq : BitVec 12) (p : Packet)
  | atRsp (l : Port) (seq : BitVec 12) (p : Packet)
  | bulkRd (l : Port) (seq : BitVec 12) (p : Packet)
  | bulkWr (l : Port) (seq : BitVec 12) (p : Packet)
  | vote (l : Port) (seq : BitVec 12) (m : StepMsg)
  | decide (l : Port) (seq : BitVec 12) (m : StepMsg)
  | query (l : Port) (seq : BitVec 12) (m : StepMsg)
  | answer (l : Port) (seq : BitVec 12) (m : StepMsg)
  | kppFwd (l : Port) (seq : BitVec 12) (m : KppPacket)
  | kppRsp (l : Port) (seq : BitVec 12) (m : KppPacket)
  | audit (l : Port) (seq : BitVec 12) (m : AuditMsg)
  | auditSend (l : Port)
  | remoteTimeout (tag : BitVec 16)
  | portEnable (mask : BitVec 8)
  | linkTrained (l : Port)
  | trainingTimeout (l : Port)
  | lockLoss (l : Port)
  | retrain (l : Port)
  | voteWindowExpire (p : Part)
  | decisionDeadline (p : Part)
  | queryTimeout (p : Part)
  | recoveryEntry (index : W32) (gen : W32)
  -- Partitions
  | partitionLock
  | partitionUnlock
  | reassignment (p : Part) (sub : BitVec 8) (value : Nat)
  | scrubDone (engine : Fin 5)
  | auditMark
  -- KPP
  | read (r : KppRequest)
  | write (r : KppRequest)
  | readSeg (r : KppRequest)
  | writeSeg (r : KppRequest)
  | segAbort (r : KppRequest)
  | kppRelease (r : KppRequest)
  | clientIdleTimeout (c : ClientKey)
  | segmentTimeout (c : ClientKey)
  | forwardTimeout (c : ClientKey) (txn : BitVec 8)
  | mailboxDoorbell
  | applyRates
  | heartbeat
  | classicFrame (ident : BitVec 11)
  | commandImage (data : List Byte)
  | consumerTimeout
  | commandImageDelivery
  | alertImage
  | alertAcknowledge (a : W32)
  | faultAcknowledge (a : W32)
  | stateRequestConfig
  | stateRequestReady
  | stateRequestRun
  | registerWrite (space : RegSpace) (off : Nat) (bytes : List Byte)
  -- Host port
  | bar4Access (off : W32) (a : HostAccess)
  | ridxWrite (q : QueueId) (t : W32)
  | hostRingConfig (q : QueueId) (r : HostRingReg) (value : W64)
  | pcieLinkDown (cause : LinkLoss)
  | perstN
  | hostDmaError (q : QueueId) (e : HostError)
  | functionLevelReset
  -- Power, reset, boot
  | domainOff (d : DomainId)
  | domainRetain (d : DomainId)
  | domainOn (d : DomainId)
  | drainComplete (d : DomainId)
  | drainTimeout (d : DomainId)
  | switchOnComplete (d : DomainId)
  | restRequest
  | restEntryComplete
  | restDrainTimeout
  | wakeN
  | clkreqNWake
  | canWake (ident : BitVec 11)
  | wakeComplete
  | coldReset (straps : Straps)
  | warmReset (cause : ResetCause)
  | warmResetDrainTimeout
  | imageStart
  | imageBlockWrite (bytes : List Byte)
  | nextImageWrite (image : BitVec 8)
  | avsUpdate (answered : Bool)
  | thermalWarn (sensor : Fin 8) (milli : Int)
  | thermalClear (milli : Int)
  | thermalTrip (sensor : Fin 8) (milli : Int)
  | supplyFault (rail : Fin 8) (millivolt : Nat)
  -- Trace and debug
  | timestamp
  | traceEnable
  | overflowPacket (source : Fin 64)
  | traceRingConfig (r : TraceRingReg) (value : W64)
  | debugLock
  -- The rows added after the chapters' order
  | epochBoundary
  | streamTableCleared
  | pcieLinkUp (width : BitVec 4) (speed : BitVec 4)
  | sysrstNRelease
  | suppliesInTolerance
  | supplyLoss (kind : SupplyLossKind)
  | temperatureBelowWarning (milli : Int)
  | jtagAccess (op : JtagOp)
  | illegalInstruction (th : Thread) (word : W64)
  deriving DecidableEq, Repr

end Sys2Proof
end

