-- ==== Sys2Proof/Config.lean ====
section
/-! DEFINITION. What the spec fixes as a size of the part, and the free values: constants without a body,
about which nothing can be proved (DESIGN CHOICE, log 4). -/

namespace Sys2Proof

/-- Which of the two F32 values that bracket the exact result a built-in function returns (R197). It
depends only on the function and the input bits (R199). Function: 0 exp, 1 reciprocal, 2 log, 3 reciprocal
square root. -/
opaque Config.takesUpper : Nat → W32 → Bool

/-- The fused voltage-temperature table of AVS, in mV (R389). -/
opaque Config.avsTable : Int → Nat

/-- The serial number in the fuses (object 0x1006). -/
opaque Config.serialNumber : W64

/-- Spare columns and rows used by an array, from the fuses (object 0x1005), each read as at most 8. -/
opaque Config.spares : Nat → BitVec 16

/-- The byte that another device answers for an address, at the n-th remote read of a descriptor, or
the code of its error response (R256, R174). -/
opaque Config.remoteByte : Nat → W64 → Except (BitVec 16) Byte

/-- The fault code with which a remote write of a descriptor is answered, if it is answered with one. -/
opaque Config.remoteWriteError : Nat → W64 → Option (BitVec 16)

/-- The matrix ID that a master other than a bed controller uses: of its own choosing (R238). -/
opaque Config.unitId : Nat → BitVec 8

/-- A word that the spec does not state: the n-th free value of a run. -/
opaque Config.freeWord : Nat → W64

/-- Fields of a stream table entry that the spec does not name when the entry becomes Free (R53). -/
opaque Config.freeEntry : Nat → BitVec 256

/-- Whether a write-back had passed the set of a line before the line was dirtied (R244). -/
opaque Config.passedSet : Nat → Nat → Bool

/-- A subchannel's training value, at the n-th training or tracking pass (R250, R251). -/
opaque Config.trainingValue : Nat → Nat → W32

/-- Where the Keeper's SRAM holds an object, by its key (R303). -/
opaque Config.objectWord : Nat → BitVec 18

/-- Streams tracked per device (Table SS-9). -/
def Config.streamCount : Nat := 262144
/-- Entries of an Almanac page (R33). -/
def Config.pageEntries : Nat := 1024
/-- Ingest buffers of the pool (R347). -/
def Config.poolBuffers : Nat := 4096
/-- Client table entries and cached responses of each (R308, R309). -/
def Config.clients : Nat := 16
/-- Alert ring entries (R316). -/
def Config.alertRing : Nat := 256

end Sys2Proof
end

