-- ==== Sys2Proof/Machine/State.lean ====
section
/-! DEFINITION. The state of one SX4 as plain data, the reasons a step can stop, and the state after reset. -/

namespace Sys2Proof.Machine

/-- Tracker states (Table EA-2). -/
inductive TrackerState where
  | idle
  | acquire
  | locked
  | flywheel
  | lost
  deriving DecidableEq, Repr

/-- Epoch sources (R24). -/
inductive EpochSource where
  | divider
  | epochRef
  | hostTime
  | trellis
  deriving DecidableEq, Repr

/-- The Epoch Tracker (R21 to R32). Cycles are CCLK cycles; `period` and `pred` count 1/256 cycles. -/
structure Tracker where
  state : TrackerState := .idle
  /-- The source in use; object 0x2000:01 holds the one written (R24). -/
  source : EpochSource := .divider
  epoch : BitVec 48 := 0
  /-- An epoch has begun since the Tracker was IDLE. -/
  running : Bool := false
  /-- b: the cycle at which the current epoch began (R22). -/
  start : Int := 0
  /-- P (R21). -/
  period : Nat := 20000000 * 256
  /-- The next predicted edge (Listing EA-1). -/
  pred : Int := 0
  /-- The epoch of this window has already begun on prediction (R28). -/
  onPred : Bool := false
  prevOk : Bool := false
  last : Int := 0
  missing : Nat := 0
  /-- The acquisition edge (R30). -/
  acq : Option Int := none
  /-- The next predicted PPS_IN mark, in 1/256 cycles; none until the first edge (R24). -/
  ppsPred : Option Int := none
  /-- The moment the internal divider took over, and the epochs it has counted since (R24). -/
  divBase : Int := 0
  divCount : Nat := 0
  /-- Started from LOST with the internal divider: it takes over at the next boundary (R30). -/
  divPending : Bool := false
  /-- b and P of the epoch before the current one, as it ended (R39). -/
  prev : Option (Int × Nat) := none
  /-- The host epoch mark that waits for its edge (R25). -/
  mark : Option (BitVec 48 × BitVec 20) := none
  /-- A follower ahead of its master holds this phase until this cycle (R39). -/
  hold : Option (Int × BitVec 20) := none
  /-- The cycle at which time was last advanced: phases jumped over count as reached then (R35). -/
  moved : Int := 0
  /-- The cycle at which EPOCH_OUT last rises or rose (R32). -/
  outRise : Option Int := none
  deriving DecidableEq, Repr

/-- A timer (R38): start point while running, elapsed value while stopped. -/
structure Timer where
  running : Bool := false
  expired : Bool := false
  startEpoch : BitVec 48 := 0
  startPhase : BitVec 20 := 0
  epochs : W32 := 0
  phase : BitVec 20 := 0
  limit : W32 := 0
  deriving DecidableEq, Repr

/-- An Almanac entry of an ended epoch that still fires (R34). -/
structure Backlog where
  index : Nat
  bits : BitVec 128
  epoch : BitVec 48
  /-- The cycle at which its phase was, or was predicted to be, reached (R35). -/
  due : Int
  /-- An early edge ended its epoch: it counts as a catch-up entry (R34). -/
  early : Bool
  /-- It stands on page B. -/
  pageB : Bool
  deriving DecidableEq, Repr

/-- The Almanac (R33 to R45). Objects 0x2103 hold the active page, the exchange and the counters. -/
structure Almanac where
  pageA : Table (BitVec 128) := []
  pageB : Table (BitVec 128) := []
  headA : BitVec 128 := 0
  headB : BitVec 128 := 0
  /-- Phase × 1,024 + index of the next entry not yet considered in this epoch (R34). -/
  cursor : Nat := 0
  backlog : List Backlog := []
  /-- The cycle in which the last entry fired: at most one fires per cycle (R34). -/
  lastFire : Option Nat := none
  timers : Table Timer := []
  deriving DecidableEq, Repr

/-- The answer to a request: data, or an error response with its code. -/
inductive Reply where
  | data (bytes : List Byte)
  | error (code : BitVec 16)
  deriving DecidableEq, Repr

/-- What a matrix request does at its target. -/
inductive Op where
  | read
  | write (data : List Byte)
  | atomic (op : AtomicOp) (operand compare : W64)
  deriving DecidableEq, Repr

/-- The answer of another device to an access of a descriptor (R256). -/
structure RemoteAnswer where
  addr : W64
  len : Nat
  wr : Bool
  reply : Reply
  deriving DecidableEq, Repr

/-- The descriptor whose work is being done: the answers of other devices that it has, in order, and the access that it
lacks one for (R256). -/
structure Asking where
  queue : QueueId
  answers : List RemoteAnswer := []
  want : Option (W64 × Nat × Op) := none
  deriving DecidableEq, Repr

/-- The end of a descriptor: completion status and fault code (Table QD-6). -/
structure Ending where
  status : BitVec 8 := 0
  code : BitVec 16 := 0
  detail : W32 := 0
  deriving DecidableEq, Repr

/-- How far a dispatched descriptor has come. -/
inductive RunPhase where
  /-- It waits for a condition its chapter names (R54, R69, R347, R257). -/
  | waiting
  /-- Its work is done; it has not ended yet (R123). -/
  | finished
  deriving DecidableEq, Repr

/-- An event that the work of a descriptor has for the trace beside its start and its end (Table TF-3). -/
inductive Mark where
  /-- 0x12: a tile, by its index in loop order. -/
  | tile (index : Nat)
  /-- 0x13: a row of the batch, and the region 1 offset of its first byte. -/
  | row (row off : Nat)
  deriving DecidableEq, Repr

/-- The dispatched descriptor of a queue. -/
structure Run where
  index : W32
  two : Bool
  opc : BitVec 8
  flags : BitVec 8
  tag : BitVec 16
  part : BitVec 8
  donec : BitVec 16
  phase : RunPhase := .finished
  ending : Ending := {}
  /-- The done selector may be used (R123). -/
  doneOk : Bool := true
  /-- Summaries to write at the end: thread, first register, values (R214). -/
  summaries : Option (Nat × Nat × List W64) := none
  /-- Publish records not yet in the host ring (R354). -/
  records : List (List Byte) := []
  /-- Ingest: the bytes of the batch not yet decided, and the records still to read (R346, R347). -/
  rest : List Byte := []
  left : Nat := 0
  /-- Ingest: bytes of the batch that host memory has not delivered yet (R356, R357). -/
  due : Nat := 0
  /-- Ingest: the cycle in which it asked for the buffer it waits for (R347). -/
  asked : Nat := 0
  /-- Remote packets whose response the descriptor waits for (R257). -/
  remote : Nat := 0
  /-- It waits for other devices' answers to its accesses; those that it has (R256). -/
  asks : Bool := false
  answers : List RemoteAnswer := []
  /-- The stream a waiting state descriptor waits for (R54, R69). -/
  stream : Nat := 0
  /-- Function table slots that a MATMUL's post-operation names (R205). -/
  slots : List Nat := []
  /-- Beds whose Imposers a MATMUL has claimed (R150). -/
  beds : List Nat := []
  /-- Power domains that a MATMUL uses beside its Imposer's (R162, R195). -/
  uses : List Nat := []
  /-- Accumulator rows and weight banks of a MATMUL: key and length of each span (R139). -/
  held : List (Nat × Nat) := []
  /-- The table image that a TABLE_LOAD makes valid when it ends: slot 8b + t and image (R204). -/
  table : Option (Nat × List Byte) := none
  /-- Tiles finished and rows written in the working view so far, in the order of their events (R395, R396). -/
  marks : List Mark := []
  deriving DecidableEq, Repr

/-- A hardware queue (R106). -/
structure Queue where
  tail : W32 := 0
  head : W32 := 0
  rel : W32 := 0
  disp : W32 := 0
  stale : W32 := 0
  refused : W32 := 0
  /-- Index of each two-entry descriptor that a thread pushed (R107). -/
  longs : List W32 := []
  run : Option Run := none
  /-- The cycle of the last push, and `TAIL` as it was before that cycle (R36). -/
  pushCycle : Nat := 0
  tailBefore : W32 := 0
  deriving DecidableEq, Repr

/-- States of a thread context (Table TD-1). -/
inductive CtxState where
  | free
  | ready
  | wait
  | faulted
  deriving DecidableEq, Repr

/-- What a context in WAIT waits for (Table TD-1, Table PW-5). -/
inductive WaitKind where
  | none
  /-- Results of earlier loads into these registers (R82). -/
  | regs (rs : List Reg)
  /-- Room for another outstanding access (R83). -/
  | room
  | counter (sel : Nat) (value : W32)
  | epoch (e : BitVec 48) (phase : BitVec 20)
  | credit (q : QueueId) (n : Nat)
  | park (value : W32)
  | fenceLocal
  | fenceGlobal
  deriving DecidableEq, Repr

/-- Kinds of an outstanding access of a thread (R83). -/
inductive AccessKind where
  | load (dst : Reg) (signed : Bool)
  | store
  | atomic (dst : Reg)
  deriving DecidableEq, Repr

/-- An outstanding access of a thread (R83, R98). -/
structure Outstanding where
  id : Nat
  kind : AccessKind
  addr : W64
  size : Nat
  pc : W64
  /-- The instruction (R105). -/
  word : W64 := 0
  isLocal : Bool
  deriving DecidableEq, Repr

/-- A thread context (R84). -/
structure Context where
  state : CtxState := .free
  wait : WaitKind := .none
  /-- Opcode of the instruction that waits (Table TF-3). -/
  waitOp : BitVec 8 := 0
  regs : Table W64 := []
  mregs : Table W64 := []
  pc : W64 := 0
  outstanding : List Outstanding := []
  deriving DecidableEq, Repr

/-- A prefetch swap-in in flight (R69). -/
structure Prefetch where
  stream : Nat
  part : Part
  slot : Nat
  complete : Bool := false
  /-- A STEP_OPEN of its partition has passed since it started. -/
  opened : Bool := false
  deriving DecidableEq, Repr

/-- A batch bound by a STEP_BIND: per row the stream and slot, or none for a masked row (R60). -/
structure Batch where
  part : Part
  tag : BitVec 16
  rows : List (Option (Nat × Nat))
  deriving DecidableEq, Repr

/-- The group decision a step waits for after its STEP_COMMIT (R273 to R276). -/
structure Judged where
  epoch : BitVec 48
  /-- The epoch in which the STEP_COMMIT acted (R63). -/
  commitEpoch : BitVec 48
  /-- Slots judged complete, and slots judged incomplete. -/
  complete : List Nat
  incomplete : List Nat
  inDoubt : Bool := false
  /-- Chips whose answer to the QUERY was UNDECIDED. -/
  answers : List (BitVec 7) := []
  deriving DecidableEq, Repr

/-- The step of a partition (R61 to R65, R272 to R276). -/
structure Step where
  isOpen : Bool := false
  epoch : BitVec 48 := 0
  judged : Option Judged := none
  /-- Votes a coordinator holds for the step in `epoch` (R274). -/
  votes : List (BitVec 7 × BitVec 48) := []
  /-- This coordinator's vote window is open (R274). -/
  window : Bool := false
  /-- The last decision acted on, with its epoch. -/
  outcome : Option (BitVec 48 × Decision) := none
  /-- Commit group and coordinator in force, taken at STEP_OPEN (R272). -/
  group : Nat := 0
  coordinator : BitVec 7 := 0
  deriving DecidableEq, Repr

/-- Streams: what is not in the stream table or the slot headers. -/
structure Streams where
  /-- Object 0x4000:01 has been written since cold reset (R49). -/
  tableSet : Bool := false
  clearing : Bool := false
  prefetches : List Prefetch := []
  batches : List Batch := []
  steps : Table Step := []
  /-- `CEPOCH` of the state in a stream's banked copy, by local index, where it is known (R72, Table SS-4). -/
  commitEpochs : Table (Option (BitVec 48)) := []
  creates : Table W32 := []
  imports : Table W32 := []
  exported : Table W32 := []
  ends : Table W32 := []
  /-- The last cycle in which a slot's `DONE` was set, and the slots (partition, slot) it was set in (R11). -/
  doneCycle : Nat := 0
  doneNow : List (Nat × Nat) := []
  deriving DecidableEq, Repr

/-- An open MATMUL chain of a bed (R156). -/
structure Chain where
  part : BitVec 8
  m : Nat
  k : Nat
  n : Nat
  fmt : BitVec 8
  arrays : BitVec 8
  accRow : Nat
  accRows : Nat
  next : Nat
  deriving DecidableEq, Repr

/-- Where a matrix request comes from, so where its response goes. -/
inductive Origin where
  | thread (th : Thread)
  | host
  deriving DecidableEq, Repr

/-- A request that waits at a target port (R235). -/
structure Request where
  id : Nat
  master : Master
  tid : Nat
  part : Part
  port : TargetPort
  addr : W64
  len : Nat
  op : Op
  /-- QoS of the transaction, taken by its master when it issued (R235). -/
  qos : Nat := 4
  /-- The cycle in which it reached its port; its wait starts there (R235, R241). -/
  arrived : Nat
  /-- The first cycle in which the port may grant it (R237). -/
  ready : Nat := 0
  /-- Held back at its master: an earlier request of its master and ID to another target is outstanding (R238). -/
  held : Bool := false
  origin : Origin
  /-- A further piece of the burst before it: its wait starts when that one is granted (R236). -/
  cont : Bool := false
  /-- Admitted before its target was fenced (R240). -/
  admitted : Bool := false
  deriving DecidableEq, Repr

/-- A response on its way to its requester (R239). -/
structure Response where
  id : Nat
  origin : Origin
  /-- The target that answered (R238). -/
  target : Nat := 0
  reply : Reply
  deriving DecidableEq, Repr

/-- What a remote request's response is for (R256, R266). -/
inductive RemoteUse where
  | request (id : Nat) (origin : Origin)
  /-- A Link Mover packet of the run of queue q: read data goes on to this address. -/
  | moverRead (q : QueueId) (dst : W64)
  | moverWrite (q : QueueId) (len : Nat)
  /-- An access of the descriptor of queue q (R256). -/
  | unit (q : QueueId) (addr : W64) (len : Nat) (wr : Bool)
  deriving DecidableEq, Repr

/-- A remote request that waits for its response (R266). -/
structure RemoteRequest where
  tag : BitVec 16
  part : Part
  /-- The port it left on (R280). -/
  port : Nat
  dest : BitVec 7
  addr : W64
  /-- Flits of its response (R239). -/
  flits : Nat := 1
  use : RemoteUse
  deriving DecidableEq, Repr

/-- The last-error block (Table MM-15). -/
structure LastError where
  det : W64 := 0
  part : BitVec 8 := 0
  code : BitVec 16 := 0
  addr : W64 := 0
  window : W32 := 0
  deriving DecidableEq, Repr

/-- A Shared Cache line: its region 0 line number and whether it is dirty (R242). -/
structure CacheLine where
  line : Nat
  dirty : Bool
  /-- Dirtied while the write-back that runs was running (R244). -/
  late : Bool := false
  deriving DecidableEq, Repr

/-- The matrix and what stands in front of the memories. -/
structure Matrix where
  requests : List Request := []
  responses : List Response := []
  nextId : Nat := 0
  lastGrant : Table Nat := []
  /-- By target port: the cycle of its next arbitration, after the last beat granted (R236). -/
  busy : Table Nat := []
  lastError : LastError := {}
  /-- Cache lines by (half × 1,024 + set) × 16 + way; with one half off, by set number alone. -/
  cache : Table (Option CacheLine) := []
  lru : Table Nat := []
  writeBack : Bool := false
  /-- 64-bit words in error: 1 a single-bit, 2 a double-bit error (R223). -/
  ecc : Table Nat := []
  deriving DecidableEq, Repr

/-- A scrub on its engine: the key of its first byte, and its spans (R287, Table PG-3). -/
structure Scrub where
  engine : Nat
  /-- Key and length of each span of bytes zeroed. -/
  spans : List (Nat × Nat)
  bytes : Nat
  /-- The cycle at which its engine turns to it, 64 bytes a cycle (R287). -/
  start : Nat := 0
  deriving DecidableEq, Repr

/-- Trellis port states (Table TL-5). -/
inductive LinkState where
  | disabled
  | training
  | init
  | up
  | down
  deriving DecidableEq, Repr

/-- What a Trellis packet is. -/
inductive PacketBody where
  | rdReq (p : Packet)
  | wrReq (p : Packet)
  | atReq (p : Packet)
  | rdRsp (p : Packet)
  | wrRsp (p : Packet)
  | atRsp (p : Packet)
  | bulkRd (p : Packet)
  | bulkWr (p : Packet)
  | tick (epoch : BitVec 48) (phase : BitVec 20) (corr : W32)
  | vote (m : StepMsg)
  | decide (m : StepMsg)
  | query (m : StepMsg)
  | answer (m : StepMsg)
  | kppFwd (m : KppPacket)
  | kppRsp (m : KppPacket)
  | audit (m : AuditMsg)
  deriving DecidableEq, Repr

/-- A packet sent and not yet acknowledged: the sequence number of its first flit (R259). -/
structure Sent where
  seq : BitVec 12
  body : PacketBody
  /-- Its flits that have been acknowledged (R259). -/
  skip : Nat := 0
  deriving DecidableEq, Repr

/-- A packet that waits at a port: the input port whose buffer holds it, if it is forwarded (R261), and the cycle from
which it waits (R271). -/
structure Queued where
  body : PacketBody
  origin : Option Nat := none
  since : Nat := 0
  deriving DecidableEq, Repr

/-- A Trellis port (R258 to R270). Lists over virtual channels are indexed VC0 first. -/
structure Link where
  state : LinkState := .disabled
  txSeq : BitVec 12 := 0
  rxSeq : BitVec 12 := 0
  replay : List Sent := []
  replays : Nat := 0
  gap : Bool := false
  /-- The far side's ACK last seen. -/
  ack : BitVec 12 := 0
  credits : List Nat := [96, 96, 288, 32]
  /-- Credits this side has returned, and the far side's count last seen (R255). -/
  returned : List (BitVec 16) := [0, 0, 0, 0]
  seen : List (BitVec 16) := [0, 0, 0, 0]
  /-- Flits in the receive buffers (R261). -/
  occupied : List Nat := [0, 0, 0, 0]
  queued : List Queued := []
  /-- The `ACK` of the last control flit if it was a `NAK`: a repeated one changes nothing (R255). -/
  lastNak : Option (BitVec 12) := none
  /-- INIT: the far side's identity and buffer sizes, the own probes sent and their round trip less the hold, and the far
  side's probes echoed (R267, R268). -/
  peer : Option (BitVec 7 × BitVec 3) := none
  peerSizes : List Nat := []
  asked : List Nat := []
  probes : Table Nat := []
  heard : List Nat := []
  deriving DecidableEq, Repr

/-- A cached KPP response (R309): its bytes, header first. -/
structure Cached where
  txn : BitVec 8
  bytes : List Byte
  deriving DecidableEq, Repr

/-- An open segmented transfer (R305). -/
structure Transfer where
  isWrite : Bool
  index : BitVec 16
  sub : BitVec 8
  total : Nat
  /-- Write: the bytes received. Read: the bytes still to send. -/
  bytes : List Byte
  deriving DecidableEq, Repr

/-- An entry of the client table (R308). -/
structure Client where
  key : ClientKey
  cache : List Cached := []
  transfer : Option Transfer := none
  /-- The TXN of the request now executed, and its transport response path (R309). -/
  running : Option (BitVec 8) := none
  deriving DecidableEq, Repr

/-- A request that the Keeper has taken and not yet answered; a reset of the host port discards the response of one
of its mailbox (R358). -/
structure Held where
  key : ClientKey
  cmd : BitVec 8
  req : KppRequest
  discard : Bool := false
  /-- The cycle in which it arrived, and the port of a forwarded one (R325). -/
  arrived : Nat := 0
  port : Nat := 0
  deriving DecidableEq, Repr

/-- A CAN FD frame sent by the SX4 (R300). -/
structure CanFrame where
  ident : BitVec 11
  data : List Byte
  brs : Bool
  deriving DecidableEq, Repr

/-- The Keeper's KPP service and the cyclic exchange (R298 to R314). -/
structure Kpp where
  clients : List Client := []
  /-- Requests forwarded by this gateway (R310). -/
  forwards : List Held := []
  /-- The request executed whose response waits for the stream table (R49), and those behind it (R325). -/
  deferred : Option Held := none
  waiting : List Held := []
  mailboxRequest : List Byte := []
  mailboxResponse : List Byte := []
  respValid : Bool := false
  rtxn : BitVec 8 := 0
  nominalRate : Nat := 500000
  dataRate : Nat := 2000000
  /-- The station's last frame, its presence, consecutive absent deliveries (R312, R313). -/
  image : List Byte := []
  present : Bool := false
  absent : Nat := 0
  /-- ISEQ and flags of the image last delivered (Table KP-8). -/
  deliveredSeq : BitVec 16 := 0
  deliveredFlags : BitVec 8 := 0
  /-- Requests kept while in Rest (R374). -/
  kept : List Held := []
  /-- The model's own: abort code of the last object write made by a command of its own row. -/
  result : BitVec 8 := 0
  deriving DecidableEq, Repr

/-- An alert in the ring (R316). -/
structure Alert where
  seq : W32
  epoch : BitVec 48
  phase : BitVec 20
  part : Part
  word : W64
  deriving DecidableEq, Repr

/-- The alert ring and its counts (R316, R318). -/
structure Alerts where
  ring : List Alert := []
  nextSeq : W32 := 0
  notLatched : W32 := 0
  produced : W32 := 0
  latched : W32 := 0
  deriving DecidableEq, Repr

/-- A fault record (Table OD-9). -/
structure FaultRecord where
  code : BitVec 16
  sev : BitVec 8
  part : BitVec 8
  unit : BitVec 16
  chip : BitVec 7
  epoch : BitVec 48
  phase : BitVec 20
  cycle : W64
  seq : W32
  addr : W64
  det0 : W64
  det1 : W64
  deriving DecidableEq, Repr

/-- The fault log (R331 to R335); its counters are objects 0x7000 and 0x7011 to 0x7020. -/
structure Faults where
  log : List FaultRecord := []
  lastFatal : Option FaultRecord := none
  nextSeq : W32 := 0
  deriving DecidableEq, Repr

/-- Host ring registers of a queue (Table HP-6). -/
structure HostRing where
  base : W64 := 0
  size : W64 := 0
  widx : W32 := 0
  ridx : W32 := 0
  rstale : W32 := 0
  deriving DecidableEq, Repr

/-- An allocated ingest buffer (R347). -/
structure Buffer where
  number : Nat
  queue : QueueId
  epoch : BitVec 48
  fill : Nat
  deriving DecidableEq, Repr

/-- A write the SX4 makes in host memory (R226, R354). -/
structure HostWrite where
  addr : W64
  data : List Byte
  deriving DecidableEq, Repr

/-- The host port (R337 to R358). -/
structure HostPort where
  bar4 : W64 := 0
  /-- MSI-X table words; the vector control word of each entry resets to 1 (masked). -/
  msixTable : Table W32 := []
  msixPending : BitVec 64 := 0
  /-- Configuration space: MSI-X Enable and Function Mask of the MSI-X capability (R342). -/
  msixEnable : Bool := false
  functionMask : Bool := false
  /-- Configuration space: the uncorrectable error status of AER (R337). -/
  aer : W32 := 0
  linkUp : Bool := false
  rings : Table HostRing := []
  openEpoch : Table (BitVec 48) := []
  buffers : List Buffer := []
  waiters : List Nat := []
  /-- Frames accepted, by stream and epoch (Table HP-7 row 6). -/
  accepted : List (Nat × BitVec 48) := []
  /-- Partitions and epochs whose frame list has been set up (R350). -/
  lists : List (Nat × BitVec 48) := []
  framesReceived : W32 := 0
  framesAccepted : W32 := 0
  framesLate : W32 := 0
  framesRejected : W32 := 0
  deriving DecidableEq, Repr

/-- Device states (Table PW-3). -/
inductive DevState where
  | off
  | reset
  | boot
  | config
  | ready
  | run
  | rest
  | fault
  deriving DecidableEq, Repr

/-- The state of a power domain (R360 to R366). -/
inductive DomainState where
  | on
  | off
  | retained
  /-- Fenced, its drain under way; true when it goes to retention. -/
  | draining (retain : Bool)
  | switchingOn (fromRetention : Bool)
  deriving DecidableEq, Repr

/-- Where a Rest entry, Rest or wake stands (R371 to R377). -/
inductive RestPhase where
  | none
  | entering
  | asleep
  | waking
  deriving DecidableEq, Repr

/-- Steps of a warm reset (R379). -/
inductive WarmPhase where
  | none
  /-- Steps 1 and 2: dispatch stopped, domains draining. -/
  | draining
  /-- Step 5 done, SYSRST_N still low. -/
  | held
  /-- In FAULT after 0x0E03: waits for the temperature (R370). -/
  | hot
  deriving DecidableEq, Repr

/-- Power, reset and boot (R360 to R392). -/
structure Power where
  dev : DevState := .boot
  /-- State request that waits for an epoch boundary (R369). -/
  request : Option DevState := none
  /-- Domains not on. -/
  domains : Table DomainState := []
  /-- Accepted domain requests that wait: domain and value (R361). -/
  domainReqs : List (Nat × Nat) := []
  rest : RestPhase := .none
  restFrom : DevState := .ready
  heldWake : Option Nat := none
  wakeCycle : Nat := 0
  warm : WarmPhase := .none
  /-- The last reset was a warm one: the pins keep the levels of R415 while it and its boot run. -/
  warmed : Bool := false
  /-- Clamped by a thermal trip or supply fault (R370). -/
  clamped : Bool := false
  tripped : Bool := false
  thermLow : Bool := false
  temperature : Int := 25000
  straps : Straps := { chipId := 0, bootSel := 0, testN := true }
  sysrstLow : Bool := false
  perstLow : Bool := false
  /-- QSPI flash bytes by offset; an unwritten byte of an erased flash reads 0xFF. -/
  flash : Table Byte := []
  /-- A downloaded boot image, and the bytes up to the highest one received (R386). -/
  download : Table Byte := []
  downloadLen : Nat := 0
  keeperSram : Table Byte := []
  /-- Training values by subchannel 4c + s: those the controllers hold, and those saved in the Keeper's SRAM (R251). -/
  training : Table W32 := []
  savedTraining : Table W32 := []
  /-- WCK2DQ tracking passes run at self-refresh exits (R251). -/
  trackings : Nat := 0
  /-- The second copies of the fuse words, by object key, and the words whose parity is wrong (R382). -/
  fuseCopies : Table Nat := []
  fuseParityBad : List Nat := []
  /-- The cycle of the last AVS step (R389). -/
  avsAt : Option Nat := none
  deriving DecidableEq, Repr

/-- A trace packet: its source, its header fields and its payload words (Table TF-2). -/
structure TracePacket where
  source : Nat
  bytes : List Byte
  deriving DecidableEq, Repr

/-- Trace (R393 to R403). -/
structure Trace where
  /-- Packets in each source's buffer. -/
  buffers : Table (List (List Byte)) := []
  /-- Per source: packets lost since its last overflow packet, and the cycle of the first loss. -/
  losses : Table (Nat × Nat) := []
  /-- Sources that have raised 0x0F01 since their last overflow packet and since trace was enabled (R400). -/
  warned : List Nat := []
  /-- The cycle of the last timestamp packet, of which a cycle has one (R398). -/
  stamped : Option Nat := none
  lastSource : Nat := 0
  ringTotal : Nat := 0
  deriving DecidableEq, Repr

/-- The JTAG TAP (R404, R405). -/
structure Jtag where
  inReset : Bool := true
  instruction : TapInstr := .bypass
  cells : List Bool := []
  readBack : List Byte := []
  deriving DecidableEq, Repr

/-- What the SX4 has sent out, newest last (the model's own record of its outputs). -/
structure Outputs where
  can : List CanFrame := []
  msix : List (Nat × W64 × W32) := []
  hostWrites : List HostWrite := []
  hostReplies : List Reply := []
  links : List (Nat × Sent) := []
  /-- Control flits sent, by port (R255, R258, R267, R268). -/
  controls : List (Nat × ControlFlit) := []
  trace : List (List Byte) := []
  /-- Targets sent to the VDD_CORE regulator on AVSBus, in mV (R389). -/
  avs : List Nat := []
  deriving DecidableEq, Repr

/-- The state of one SX4. -/
structure State where
  /-- Commands that wait, first in first out. -/
  pending : List Instr := []
  /-- CCLK cycles since cold reset. -/
  cycle : Nat := 0
  tracker : Tracker := {}
  almanac : Almanac := {}
  /-- Dictionary objects that differ from their default, by index × 256 + subindex. -/
  objs : Table Nat := []
  /-- W1 and W1F objects that have been set (R306). -/
  onceSet : List Nat := []
  /-- Bytes of regions 0, 1 and 4 to 23, by region × 2^48 + offset. -/
  mem : List Host.Cell := []
  queues : Table Queue := []
  /-- The descriptor whose work the present command does; none between commands. -/
  asking : Option Asking := none
  contexts : Table Context := []
  counters : Table W32 := []
  /-- Values added to each counter since it was last zeroed (Table PG-5). -/
  added : Table W32 := []
  lastIssue : Table Nat := []
  /-- Last queue each consumer served (R115). -/
  lastServed : Table Nat := []
  streams : Streams := {}
  chains : Table (Option Chain) := []
  /-- Valid function table slots, by 8b + t: the image of 1,600 bytes. -/
  tables : Table (List Byte) := []
  matrix : Matrix := {}
  scrubs : List Scrub := []
  links : Table Link := []
  remote : List RemoteRequest := []
  nextTag : BitVec 16 := 0
  /-- Tags of timed-out requests, and the cycle until which each is not reused (R266). -/
  retired : List (BitVec 16 × Nat) := []
  kpp : Kpp := {}
  alerts : Alerts := {}
  faults : Faults := {}
  host : HostPort := {}
  power : Power := {}
  trace : Trace := {}
  jtag : Jtag := {}
  /-- Partition that last owned a resource, by mask subindex × 1,024 + bit (R287); P0 after cold reset. -/
  lastOwner : Table Nat := []
  /-- Audit values captured by the last audit mark (R296), by index × 256 + subindex. -/
  captured : Table Nat := []
  outputs : Outputs := {}
  /-- The model's own counter behind the free values. -/
  freeCtr : Nat := 0
  deriving DecidableEq, Repr

/-- Reasons the model stops with a fault. -/
inductive Fault where
  /-- Raised by JTAG_ACCESS for an operation of the manufacturing test mode, of which the spec says only
  that it exists and that JTAG reaches it (R381, R404). Safe: the model stops where the part goes on. -/
  | manufacturingTestMode
  deriving DecidableEq, Repr

/-- Reasons the model refuses a command. -/
inductive Refusal where
  /-- Raised by the dispatch of a command without a meaning. Safe: the model stops. -/
  | notModelled (mnemonic : String)
  deriving DecidableEq, Repr

/-- The state right after a cold reset (R378, R380): PORST_N has risen, the straps are sampled and the
boot ROM runs. Every default above is the reset value; the assumption log names those the spec does not give. -/
def State.reset : State := {}

end Sys2Proof.Machine
end

