-- ==== Sys2Proof/Machine/Bits.lean ====
section
/-! DEFINITION. Bit fields, byte order, sparse tables and the CRC-32C: the helpers every family uses. -/

namespace Sys2Proof.Machine

/-- Bits [hi:lo] of a number (R4). -/
def bits (n hi lo : Nat) : Nat := (n >>> lo) % 2 ^ (hi - lo + 1)

/-- Bit i of a number, as 0 or 1. -/
def bit (n i : Nat) : Nat := (n >>> i) % 2

/-- A number with its bits [hi:lo] replaced. -/
def setBits (n hi lo v : Nat) : Nat :=
  n - bits n hi lo * 2 ^ lo + (v % 2 ^ (hi - lo + 1)) * 2 ^ lo

/-- Little-endian value of a byte list (R5). -/
def leNat : List Byte → Nat
  | [] => 0
  | b :: r => b.toNat + 256 * leNat r

/-- The little-endian bytes of a number, len of them (R5). -/
def natLe (n : Nat) : Nat → List Byte
  | 0 => []
  | k + 1 => BitVec.ofNat 8 n :: natLe (n / 256) k

/-- The two's complement reading of the low w bits of n. -/
def signedOf (w n : Nat) : Int := (BitVec.ofNat w n).toInt

/-- The value an entry of a table has, or its default. -/
def tget {α : Type} (m : Table α) (k : Nat) (d : α) : α :=
  match m with
  | [] => d
  | (j, v) :: r => if j = k then v else tget r k d

/-- A table without the entry of k. -/
def tdel {α : Type} (m : Table α) (k : Nat) : Table α := m.filter fun e => !decide (e.1 = k)

/-- A table with the entry of k set to v, in its place among rising keys; an entry equal to its default d is not
kept. -/
def tset {α : Type} [DecidableEq α] (m : Table α) (k : Nat) (v d : α) : Table α :=
  match m with
  | [] => if v = d then [] else [(k, v)]
  | (j, w) :: r =>
    if j < k then (j, w) :: tset r k v d
    else if v = d then tdel ((j, w) :: r) k
    else (k, v) :: tdel ((j, w) :: r) k

/-- A table without the entries of keys lo to lo + len − 1. -/
def tdrop {α : Type} (m : Table α) (lo len : Nat) : Table α :=
  m.filter fun e => !(decide (lo ≤ e.1) && decide (e.1 < lo + len))

/-- Keys strictly rising. -/
def tsorted {α : Type} : Table α → Bool
  | [] => true
  | [_] => true
  | (j, _) :: (k, w) :: r => decide (j < k) && tsorted ((k, w) :: r)

/-- The canonical form of a table with one default: keys rising, no entry equal to the default. -/
def twf {α : Type} [DecidableEq α] (d : α) (m : Table α) : Bool :=
  tsorted m && m.all fun e => decide (e.2 ≠ d)

/-- Whether every byte of a list is zero. -/
def allZero (l : List Byte) : Bool := l.all fun b => b == 0

/-- n zero bytes. -/
def zeros (n : Nat) : List Byte := List.replicate n 0

/-- Round a number up to a multiple. -/
def roundUp (n m : Nat) : Nat := (n + m - 1) / m * m

/-- Bits set among the low w bits of a number. -/
def popcount (w n : Nat) : Nat := ((List.range w).filter fun i => n.testBit i).length

/-- The numbers of the bits set among the low w bits, rising. -/
def setList (w n : Nat) : List Nat := (List.range w).filter fun i => n.testBit i

/-- A slice of a byte list, zero beyond its end. -/
def slice (l : List Byte) (off len : Nat) : List Byte :=
  let p := (l.drop off).take len
  p ++ zeros (len - p.length)

/-- A field of a byte list as a number (R5). -/
def field (l : List Byte) (off len : Nat) : Nat := leNat (slice l off len)

/-- A byte list with bytes replaced from an offset; it never grows. -/
def patch (l : List Byte) (off : Nat) (v : List Byte) : List Byte :=
  (l.take off ++ v ++ l.drop (off + v.length)).take l.length

/-- One bit of the reflected CRC-32C (Castagnoli, 0x1EDC_6F41 reflected). -/
def crcBit (c : Nat) : Nat := if c % 2 = 1 then (c / 2) ^^^ 0x82F63B78 else c / 2

/-- One byte of the CRC-32C. -/
def crcByte (c : Nat) (b : Byte) : Nat :=
  crcBit (crcBit (crcBit (crcBit (crcBit (crcBit (crcBit (crcBit (c ^^^ b.toNat))))))))

/-- CRC-32C of a byte list (Epoch Time and the Almanac, The Almanac pages). -/
def crc32c (l : List Byte) : Nat := (l.foldl crcByte 0xFFFFFFFF) ^^^ 0xFFFFFFFF

/-- Whether n is a power of two. -/
def isPow2 (n : Nat) : Bool := decide (0 < n) && decide (2 ^ Nat.log2 n = n)

/-- Run a step n times from 0, with its number: a loop of the spec's listings. -/
def loopN {σ : Type} (f : Nat → σ → σ) : Nat → σ → σ
  | 0, s => s
  | n + 1, s => f n (loopN f n s)

/-- As `loopN`, over a part of the state that can stop with an error. -/
def loopE {σ ε : Type} (f : Nat → σ → Except ε σ) : Nat → σ → Except ε σ
  | 0, s => .ok s
  | n + 1, s => (loopE f n s).bind (f n)

end Sys2Proof.Machine
end

