-- ==== Sys2Proof/Machine/Objects.lean ====
section
/-! DEFINITION. Storage of the dictionary objects: keys, reset values, reads and writes of the value held,
and the fields of the objects that many units read. -/

namespace Sys2Proof.Machine

/-- Key of an object: index × 256 + subindex (How the dictionary is organised). -/
def objKey (i j : Nat) : Nat := i * 256 + j

/-- Reset value of the binding word of queue q (Table QD-1, Table QD-3). -/
def bindingDefault (q : Nat) : Nat :=
  let cb : Nat × Nat :=
    if q < 8 then (1 + q % 2, q / 2) else if q < 16 then (3, (q - 8) / 2)
    else if q < 20 then (4, 0) else if q < 24 then (5, 0) else if q < 28 then (6, 0) else (7, 0)
  cb.1 * 2 ^ 28 + cb.2 * 2 ^ 26 + (if cb.1 = 6 then 2 ^ 24 else 0) + 2 * 2 ^ 16

/-- Reset value of window W63 (R228). -/
def window63Default : Nat :=
  2 ^ (178 + 11) + 2 ^ (162 + 11) + 0xFF * 2 ^ 152 + 0xFF * 2 ^ 144 + 2 ^ 143 + 6 * 2 ^ 128
    + 0x1000000 * 2 ^ 64 + 3 * 2 ^ 48

/-- Reset values of P0's objects (Table PG-1). -/
def partitionDefault (j : Nat) : Nat :=
  match j with
  | 1 => 0xFFFF
  | 2 => 2 ^ 256 - 1
  | 3 => 2 ^ 256 - 1
  | 4 => 2 ^ 192 - 1
  | 5 => 0xFFFF
  | 7 => 0x400
  | 8 => 0xFFFFF
  | 9 => 0x3C3C3C3C3C3C3C3C
  | 10 => 0xFFFFFFFF
  | 11 => 2 ^ 64 - 1
  | _ => 0

/-- Reset value of an object (the Default columns of the dictionary tables); 0 where not named here. -/
def objDefault (i j : Nat) : Nat :=
  match i with
  | 0x1000 => 0x00010004
  | 0x1003 => 0x00B0
  | 0x1004 => 0xFFFF
  | 0x1101 => if j = 1 then 500000 else if j = 2 then 2000000 else if j = 3 then 1 else 0
  | 0x1102 => 1000
  | 0x1103 => if j = 2 then 60 else if j = 4 then 1000 else 0
  | 0x1104 => if j = 2 then 10000 else 0
  | 0x1105 => if j = 2 then 100 else if j = 3 then 0x20000 else if j = 4 then 0xE0000 else if j = 5 then 3 else 0
  | 0x1106 => 0xFF
  | 0x2000 => if j = 2 then 2 else if j = 3 then 1 else 0
  | 0x2001 => 20000000
  | 0x2103 => if j = 1 then 1 else 0
  | 0x2200 => 1
  | 0x2201 => 1
  | 0x2202 => if j = 2 then 0x0F else if j = 7 then 0x0F else 0
  | 0x2203 => if j = 2 then 100000 else if j = 3 then 110000 else if j = 4 then 750 else 0
  | 0x3000 => partitionDefault j
  | 0x3100 => bindingDefault (j - 1)
  | 0x3200 => if j = 0x40 then window63Default else if 0x42 ≤ j ∧ j ≤ 0x4F then 4 else 0
  | 0x3300 =>
    if j = 3 then 2 ^ 64 - 1 else if j = 5 then 100 else if j = 0x40 then 20 else if j = 0x41 then 50
    else if j = 0x42 then 100 else 0
  | 0x3400 => if j = 1 then 0x0F else if j = 2 then 8533 else if j = 3 then 16 else 0
  | 0x3500 => if j = 2 then 0xFF else 0
  | 0x4010 => if j = 3 then 0x00C00000 else if j = 7 then 262144 else 0
  | 0x7800 => if j = 3 then 16 else if j = 6 then 2 ^ 64 - 1 else 0
  | 0x7F00 => if j = 1 then 1 else if j = 2 then 1 else 0
  | _ => 0

/-- The value an object holds. -/
def State.obj (s : State) (i j : Nat) : Nat := tget s.objs (objKey i j) (objDefault i j)

/-- Store an object's value. -/
def State.setObj (s : State) (i j v : Nat) : State :=
  { s with objs := tset s.objs (objKey i j) v (objDefault i j) }

/-- Add to a counter object, modulo 2^32 (R323). -/
def State.bump (s : State) (i j : Nat) (n : Nat := 1) : State := s.setObj i j ((s.obj i j + n) % 2 ^ 32)

/-- A write of a W1 or W1F object: set, only its own value is accepted, and any other is counted; not yet set, the
write sets it (R306). -/
def State.onceWrite (s : State) (i j v : Nat) (f : State → State × Nat) : State × Nat :=
  if objKey i j ∈ s.onceSet then if v = s.obj i j then (s, 0) else (s.bump 0x7070 1, 0x08)
  else
    let p := f s
    (if p.2 = 0 then { p.1 with onceSet := p.1.onceSet ++ [objKey i j] } else p.1, p.2)

/-- An object that holds a Boolean. -/
def State.objOn (s : State) (i j : Nat) : Bool := decide (s.obj i j ≠ 0)

/-- Chip ID of this SX4 (R381). -/
def State.chip (s : State) : BitVec 7 := s.power.straps.chipId

/-- The partition lock (object 0x1201). -/
def State.locked (s : State) : Bool := s.objOn 0x1201 0

/-- Index of partition p's objects (R281). -/
def partIndex (p : Nat) : Nat := 0x3000 + 0x10 * p

/-- A subindex of partition p's object. -/
def State.partObj (s : State) (p j : Nat) : Nat := s.obj (partIndex p) j

/-- Partition p is in sealed mode (R290). -/
def State.isSealed (s : State) (p : Nat) : Bool := s.locked && decide (s.partObj p 13 ≠ 0)

/-- Whether partition p owns the resource of bit i of its mask j (Table PG-1). -/
def State.owns (s : State) (p j i : Nat) : Bool := (s.partObj p j).testBit i

/-- The lowest partition that owns bit i of mask j. -/
def State.owner (s : State) (j i : Nat) : Option Nat := (List.range 8).find? fun p => s.owns p j i

/-- The power-control partition (object 0x2104:00). -/
def State.powerPart (s : State) : Nat := s.obj 0x2104 0

/-- PART byte of a device-wide fault or packet (Table OD-9). -/
def deviceWide : BitVec 8 := 8
/-- PART byte of partition p. -/
def partByte (p : Nat) : BitVec 8 := BitVec.ofNat 8 (p % 8)

/-! ### Queue bindings (Table QD-3) -/

/-- Binding word of queue q. -/
def State.binding (s : State) (q : Nat) : Nat := s.obj 0x3100 (q + 1)
/-- `CONS`. -/
def State.qCons (s : State) (q : Nat) : Nat := bits (s.binding q) 31 28
/-- `BED`. -/
def State.qBed (s : State) (q : Nat) : Nat := bits (s.binding q) 27 26
/-- `PROD`: pushes are by doorbell. -/
def State.qDoorbell (s : State) (q : Nat) : Bool := decide (bit (s.binding q) 24 = 1)
/-- `PART`. -/
def State.qPart (s : State) (q : Nat) : Nat := bits (s.binding q) 22 20
/-- Depth in entries (R106). -/
def State.qDepth (s : State) (q : Nat) : Nat := 16 * 2 ^ bits (s.binding q) 19 16
/-- Ring base. -/
def State.qRing (s : State) (q : Nat) : Nat := s.obj 0x3101 (q + 1)
/-- Completion ring base. -/
def State.qCompletion (s : State) (q : Nat) : Nat := s.obj 0x3102 (q + 1)
/-- Held mode. -/
def State.qHeld (s : State) (q : Nat) : Bool := s.objOn 0x3103 (q + 1)
/-- A queue's indices. -/
def State.queue (s : State) (q : Nat) : Queue := tget s.queues q {}
/-- Store a queue's indices. -/
def State.setQueue (s : State) (q : Nat) (v : Queue) : State := { s with queues := tset s.queues q v {} }
/-- Ring address of entry index i of queue q (R106). -/
def State.qEntry (s : State) (q i : Nat) : Nat := s.qRing q + 64 * (i % s.qDepth q)
/-- Credits (R110); zero for a disabled queue (R106). -/
def State.credits (s : State) (q : Nat) : Nat :=
  if s.qRing q = 0 then 0
  else (s.qDepth q + 2 ^ 32 - ((s.queue q).tail - (s.queue q).head).toNat) % 2 ^ 32

/-! ### Slot geometry (R55) -/

/-- Slot size S of partition p. -/
def State.slotSize (s : State) (p : Nat) : Nat := 512 * 2 ^ s.obj (0x4010 + p) 1
/-- H, the size of a half. -/
def State.halfSize (s : State) (p : Nat) : Nat := (s.slotSize p - 64) / 2
/-- Slot area offset. -/
def State.slotArea (s : State) (p : Nat) : Nat := s.obj (0x4010 + p) 2
/-- Slot area length. -/
def State.slotAreaLen (s : State) (p : Nat) : Nat := s.obj (0x4010 + p) 3
/-- Slots of partition p. -/
def State.slotCount (s : State) (p : Nat) : Nat := s.slotAreaLen p / s.slotSize p
/-- The partition whose slot area holds a physical State Store offset. -/
def State.areaOwner (s : State) (off : Nat) : Option Nat :=
  (List.range 8).find? fun p => decide (s.slotArea p ≤ off) && decide (off < s.slotArea p + s.slotAreaLen p)
/-- Stride G of the seed vectors (R66). -/
def State.seedStride (s : State) (p : Nat) : Nat := roundUp (s.halfSize p) 64

end Sys2Proof.Machine
end

