-- ==== Sys2Proof/Machine/Ops.lean ====
section
/-! DEFINITION. Named operations every family uses: the epoch's phase, trace packets, MSI-X, faults, event
counters, the bytes of memory. -/

namespace Sys2Proof.Machine

/-- The result of every meaning that completes. -/
abbrev done (s : State) : Host.Outcome State Fault Refusal := .next s

/-! ### Time (R21 to R23) -/

/-- The first cycle from t on that the Tracker and the Almanac count: in Rest only every tenth, a REFCLK cycle (R374). -/
def State.counted (s : State) (t : Nat) : Nat := if s.power.dev = .rest then roundUp t 10 else t

/-- As `counted`, for a time that may lie before cycle 0. -/
def State.countedInt (s : State) (t : Int) : Int := if s.power.dev = .rest then -((-t) / 10) * 10 else t

/-- Take the cycle count to t, in Rest to the first REFCLK cycle from t on (R374); it never goes back (DESIGN CHOICE,
log 1). -/
def State.advance (s : State) (t : Nat) : State := { s with cycle := Max.max s.cycle (s.counted t) }

/-- The phase at cycle t (R22), with a follower's hold (R39). -/
def Tracker.phaseAt (tr : Tracker) (t : Int) : Nat :=
  let own : Nat :=
    if t ≤ tr.start then 0
    else Min.min (2 ^ 20 - 1) ((t - tr.start).toNat * 2 ^ 28 / tr.period)
  if !tr.running then 0
  else match tr.hold with
    | some (till, ph) => if t < till then ph.toNat else own
    | none => own

/-- The first cycle at which the current epoch's phase is ph (R22). -/
def Tracker.reachCycle (tr : Tracker) (ph : Nat) : Int :=
  tr.start + ((ph * tr.period + 2 ^ 28 - 1) / 2 ^ 28 : Nat)

/-- The current phase. -/
def State.phase (s : State) : Nat := s.tracker.phaseAt s.cycle

/-- The current epoch number. -/
def State.epoch (s : State) : BitVec 48 := s.tracker.epoch

/-! ### Bytes of memory -/

/-- What a byte of memory that is not listed reads as (Table PW-7; DESIGN CHOICE, log 3). -/
def unlistedByte : Byte := 0

/-- Memory's canonical form: addresses strictly rising, no entry equal to what an unlisted address reads as. -/
abbrev Memory.wf (m : List Host.Cell) : Prop := twf unlistedByte m = true

/-- Key of a byte: region and offset (Table TD-3). -/
def memKey (region off : Nat) : Nat := region * 2 ^ 48 + off

/-- One byte of memory. -/
def State.rd8 (s : State) (k : Nat) : Byte := tget s.mem k unlistedByte

/-- Write one byte of memory. -/
def State.wr8 (s : State) (k : Nat) (b : Byte) : State := { s with mem := tset s.mem k b unlistedByte }

/-- Consecutive bytes of memory. -/
def State.rdBytes (s : State) (k : Nat) : Nat → List Byte
  | 0 => []
  | n + 1 => s.rd8 k :: State.rdBytes s (k + 1) n

/-- Write consecutive bytes of memory. -/
def State.wrBytes (s : State) (k : Nat) : List Byte → State
  | [] => s
  | b :: r => (s.wr8 k b).wrBytes (k + 1) r

/-- Zero a span of memory: its entries go (the unlisted byte is zero on chip, R366, R287). -/
def State.zeroSpan (s : State) (k len : Nat) : State := { s with mem := tdrop s.mem k len }

/-- A little-endian number in memory (R5). -/
def State.rdNat (s : State) (k n : Nat) : Nat := leNat (s.rdBytes k n)

/-! ### Trace (R393 to R401) -/

/-- Trace is enabled and its domain D49 is on. -/
def State.traceOn (s : State) : Bool :=
  s.objOn 0x7800 1 && decide (tget s.power.domains 49 DomainState.on = .on)

/-- Whether source src emits a packet with this PART byte (R394). -/
def State.emits (s : State) (src : Nat) (who : BitVec 8) : Bool :=
  s.traceOn && (s.obj 0x7800 6).testBit src &&
    s.owns (if who.toNat.testBit 3 then s.powerPart else who.toNat % 8) 11 src

/-- An event packet (Table TF-2); P1 and P2 make it long. -/
def eventPacket (src : Nat) (spec : Bool) (who : BitVec 8) (ev cyc p0 : Nat) (more : List Nat) : List Byte :=
  [BitVec.ofNat 8 src, BitVec.ofNat 8 ((if spec then 0x80 else 0) + (if more.isEmpty then 0 else 0x40)),
    who &&& 0x0F, BitVec.ofNat 8 ev] ++ natLe cyc 4 ++ natLe p0 8 ++ more.flatMap (natLe · 8)

/-- Put a packet into its source's buffer of 64; with no room it is lost and counted. The flag says that it
is the first loss since the source's last overflow packet, or since trace was enabled (R400). -/
def State.buffered (s : State) (src : Nat) (p : List Byte) : State × Bool :=
  let b := tget s.trace.buffers src []
  if b.length < 64 then
    ({ s with trace := { s.trace with buffers := tset s.trace.buffers src (b ++ [p]) [] } }, false)
  else
    let l := tget s.trace.losses src (0, 0)
    let l' := if l.1 = 0 then (1, s.cycle % 2 ^ 32) else (l.1 + 1, l.2)
    ({ s with trace := { s.trace with
        losses := tset s.trace.losses src l' (0, 0)
        warned := if src ∈ s.trace.warned then s.trace.warned else src :: s.trace.warned } }.bump 0x7800 7,
      decide (src ∉ s.trace.warned))

/-- Emit an event under R394, without the fault of a first loss. -/
def State.emitQuiet (s : State) (src : Nat) (spec : Bool) (who : BitVec 8) (ev p0 : Nat)
    (more : List Nat := []) : State × Bool :=
  if s.emits src who then s.buffered src (eventPacket src spec who ev s.cycle p0 more) else (s, false)

/-! ### MSI-X (R342) -/

/-- A word of the MSI-X table: vector × 4 + word; the mask bit resets to 1 (PRESUMED, log 5). -/
def State.msixWord (s : State) (i : Nat) : W32 := tget s.host.msixTable i (if i % 4 = 3 then 1 else 0)

/-- A vector is masked: by its entry, or by the function mask (R342). -/
def State.msixMasked (s : State) (v : Nat) : Bool := s.host.functionMask || (s.msixWord (4 * v + 3)).toNat.testBit 0

/-- Signal a vector: with MSI-X enabled, a message while the link is up and the vector is unmasked, a pending bit while
it is masked (R342). -/
def State.msix (s : State) (v : Nat) : State :=
  if !s.host.linkUp || !s.host.msixEnable then s
  else if s.msixMasked v then
    { s with host := { s.host with msixPending := s.host.msixPending ||| (1#64 <<< v) } }
  else
    { s with outputs := { s.outputs with
        msix := s.outputs.msix ++ [(v, (s.msixWord (4 * v + 1)) ++ (s.msixWord (4 * v)), s.msixWord (4 * v + 2))] } }

/-! ### Faults (R330 to R336) -/

/-- Severity of a fault code (Table OD-10): 0 INFO, 1 WARN, 2 ERROR, 3 FATAL. -/
def severity (code : Nat) : Nat :=
  if code ∈ [0x0901, 0x0F01] then 0
  else if code ∈ [0x0101, 0x0104, 0x0105, 0x0205, 0x0304, 0x0401, 0x0702, 0x0A01, 0x0A02, 0x0C01, 0x0C02,
    0x0D01, 0x0E02] then 1
  else if code ∈ [0x0903, 0x0E03, 0x0E04, 0x1001, 0x1002, 0x1003] then 3
  else 2

/-- Enter FAULT (R367, R370). -/
def State.enterFault (s : State) : State :=
  match s.power.dev with
  | .off => s
  | .reset => s
  | _ => { s with power := { s.power with dev := .fault, request := none, rest := .none } }

/-- Whether a record of this severity enters a log with n unread records (R332). -/
def logAdmits (sev n : Nat) : Bool := if sev = 0 then decide (n < 48) else decide (n < 64)

/-- The record of a fault raised now (Table OD-9). -/
def State.faultRecord (s : State) (code : Nat) (who : BitVec 8) (unit addr det0 det1 : Nat) : FaultRecord :=
  { code := BitVec.ofNat 16 code, sev := BitVec.ofNat 8 (severity code), part := who, unit := BitVec.ofNat 16 unit,
    chip := s.chip, epoch := s.epoch, phase := BitVec.ofNat 20 s.phase, cycle := BitVec.ofNat 64 s.cycle,
    seq := s.faults.nextSeq, addr := BitVec.ofNat 64 addr, det0 := BitVec.ofNat 64 det0,
    det1 := BitVec.ofNat 64 det1 }

/-- A record raised in r's cycle whose place is behind r's: ascending code, then ascending unit (R331). -/
def FaultRecord.behind (x r : FaultRecord) : Bool :=
  decide (x.cycle = r.cycle) && (decide (r.code < x.code) || (decide (r.code = x.code) && decide (r.unit < x.unit)))

/-- The records that stand behind a new one of their cycle, each with the sequence number of the next, the last with n. -/
def shiftSeq (n : W32) : List FaultRecord → List FaultRecord
  | [] => []
  | [x] => [{ x with seq := n }]
  | x :: y :: l => { x with seq := y.seq } :: shiftSeq n (y :: l)

/-- The log with a further record in its place among those of its cycle (R331). -/
def placeFault (r : FaultRecord) : List FaultRecord → List FaultRecord
  | [] => [r]
  | x :: l => if x.behind r then { r with seq := x.seq } :: shiftSeq r.seq (x :: l) else x :: placeFault r l

/-- Sequence numbers of logged records before and after a record of their cycle takes its place before them. -/
def seqMoves (r : FaultRecord) (log : List FaultRecord) : List (W32 × W32) :=
  let late := (log.filter fun x => x.behind r).map fun x => x.seq
  late.zip (late.drop 1 ++ [r.seq])

/-- A sequence number after the moves. -/
def movedSeq (moves : List (W32 × W32)) (n : W32) : W32 := ((moves.find? fun m => decide (m.1 = n)).map fun m => m.2).getD n

/-- A packet in the Keeper's trace buffer after the moves: a 0x51 event carries its fault's number (Table TF-3). -/
def movedPacket (moves : List (W32 × W32)) (p : List Byte) : List Byte :=
  if p.getD 3 0 = 0x51 then
    p.take 12 ++ natLe (movedSeq moves (BitVec.ofNat 32 (leNat ((p.drop 12).take 4)))).toNat 4 ++ p.drop 16
  else p

/-- The numbers that records of this cycle have taken move on where a new record takes its place before them (R331). -/
def State.moveSeqs (s : State) (moves : List (W32 × W32)) : State :=
  if moves.isEmpty then s
  else { s with
    faults := { s.faults with lastFatal := s.faults.lastFatal.map fun x => { x with seq := movedSeq moves x.seq } }
    trace := { s.trace with
      buffers := tset s.trace.buffers 16 ((tget s.trace.buffers 16 []).map (movedPacket moves)) [] } }

/-- The sequence number that a fault raised now takes: after those of this cycle with a lower code, or the same code and a
unit not higher (R331). -/
def State.faultSeq (s : State) (code unit : Nat) : W32 :=
  let r := s.faultRecord code 0 unit 0 0 0
  if logAdmits (severity code) s.faults.log.length then
    ((s.faults.log.find? fun x => x.behind r).map fun x => x.seq).getD s.faults.nextSeq
  else s.faults.nextSeq

/-- Take a sequence number and log a record; one that the log does not admit is counted as lost (R331, R332). -/
def State.logRecord (s : State) (sev : Nat) (r : FaultRecord) : State :=
  if logAdmits sev s.faults.log.length then
    let t := s.moveSeqs (seqMoves r s.faults.log)
    let log := placeFault r s.faults.log
    { t with faults := { t.faults with
        nextSeq := s.faults.nextSeq + 1, log
        lastFatal := if sev = 3 then
            some { r with seq := ((s.faults.log.find? fun x => x.behind r).map fun x => x.seq).getD r.seq }
          else t.faults.lastFatal } }
  else
    { s with faults := { s.faults with
        nextSeq := s.faults.nextSeq + 1
        lastFatal := if sev = 3 then some r else s.faults.lastFatal } }.bump 0x7000 5

/-- What a fault of a severity brings about: FATAL enters FAULT, WARN and above signal vector 0 (R333, R334). -/
def State.actOnSeverity (s : State) (sev : Nat) : State :=
  let s := if sev = 3 then s.enterFault else s
  if sev ≥ 1 then s.msix 0 else s

/-- Take a sequence number, count the fault, log its record, act on its severity; no trace (R331 to R334). -/
def State.recordFault (s : State) (code : Nat) (who : BitVec 8) (unit addr det0 det1 : Nat) : State :=
  ((((s.bump 0x7000 1).bump (0x7010 + code / 256) (code % 256)).logRecord (severity code)
    (s.faultRecord code who unit addr det0 det1))).actOnSeverity (severity code)

/-- The Keeper's event 0x51 of the fault with sequence number seq (Table TF-3). -/
def State.faultEvent (s : State) (code : Nat) (who : BitVec 8) (seq : W32) : State × Bool :=
  s.emitQuiet 16 false who 0x51 (code + seq.toNat * 2 ^ 32)

/-- Raise a fault: its record, and its trace event, whose own first loss raises 0x0F01 once (R331, R400). -/
def State.raise (s : State) (code : Nat) (who : BitVec 8) (unit : Nat := 0) (addr : Nat := 0)
    (det0 : Nat := 0) (det1 : Nat := 0) : State :=
  let e := (s.recordFault code who unit addr det0 det1).faultEvent code who (s.faultSeq code unit)
  if e.2 then
    let seq := e.1.faultSeq 0x0F01 16
    ((e.1.recordFault 0x0F01 deviceWide 16 0 0 0).faultEvent 0x0F01 deviceWide seq).1
  else e.1

/-- Emit an event (R394); the first loss since the source's last overflow packet raises 0x0F01 (R400). -/
def State.emit (s : State) (src : Nat) (spec : Bool) (who : BitVec 8) (ev p0 : Nat)
    (more : List Nat := []) : State :=
  let e := s.emitQuiet src spec who ev p0 more
  if e.2 then e.1.raise 0x0F01 deviceWide src else e.1

/-! ### Event counters (R86 to R89) -/

/-- Counter number 64b + k of a selector (R86). -/
def selCounter (sel : Nat) : Nat := bits sel 9 8 * 64 + bits sel 5 0

/-- Whether a selector names a counter of partition p (R86). -/
def State.selOk (s : State) (p sel : Nat) : Bool :=
  decide (bits sel 7 6 = 0) && s.owns p 2 (selCounter sel)

/-- The value of counter 64b + k. -/
def State.counter (s : State) (c : Nat) : W32 := tget s.counters c 0

/-- Add to a counter, modulo 2^32 (R87). -/
def State.addCounter (s : State) (c : Nat) (v : W32) : State :=
  { s with counters := tset s.counters c (s.counter c + v) 0,
           added := tset s.added c (tget s.added c 0 + v) 0 }

/-- Set a counter to zero (R89). -/
def State.zeroCounter (s : State) (c : Nat) : State :=
  { s with counters := tset s.counters c 0 0, added := tset s.added c 0 0 }

/-- Whether counter value c has reached v (R88). -/
def reached (c v : W32) : Bool := decide ((c - v).toNat < 2 ^ 31)

/-- The next free number (DESIGN CHOICE, log 4). -/
def State.fresh (s : State) : State × Nat := ({ s with freeCtr := s.freeCtr + 1 }, s.freeCtr)

/-! ### Threads -/

/-- Number 64b + k of a context. -/
def Thread.num (th : Thread) : Nat := th.bed.val * 64 + th.ctx.val

/-- The context of a number. -/
def threadOf (n : Nat) : Thread := { bed := ⟨n / 64 % 4, by omega⟩, ctx := ⟨n % 64, by omega⟩ }

/-- A context. -/
def State.context (s : State) (n : Nat) : Context := tget s.contexts n {}

/-- Store a context. -/
def State.setContext (s : State) (n : Nat) (c : Context) : State :=
  { s with contexts := tset s.contexts n c {} }

/-- Partition that owns a context; one that none owns does not issue (R284), and what is still under way for it acts for
P0 (DESIGN CHOICE, log 8). -/
def State.contextPart (s : State) (n : Nat) : Nat := (s.owner 2 n).getD 0

/-- The 15-bit thread ID of a context (R79). -/
def State.threadId (s : State) (n : Nat) : Nat := s.chip.toNat * 256 + n % 256

/-! ### Domains -/

/-- State of a power domain. -/
def State.domain (s : State) (d : Nat) : DomainState := tget s.power.domains d .on
/-- Store a domain's state, and the status object 0x2201 (R361 to R366). -/
def State.setDomain (s : State) (d : Nat) (v : DomainState) : State :=
  let st : Nat := match v with
    | .on => 1
    | .off => 0
    | .retained => 2
    | .draining _ => 3
    | .switchingOn _ => 3
  { s with power := { s.power with domains := tset s.power.domains d v .on } }.setObj 0x2201 (d + 1) st
/-- A domain is on. -/
def State.isOn (s : State) (d : Nat) : Bool := decide (s.domain d = .on)

/-- Domain of a byte of memory (Table PW-1); none for region 0, whose controllers go off in Rest only. -/
def memDomain (region off : Nat) : Option Nat :=
  if region = 1 then some (38 + off / (3 * 2 ^ 20))
  else if region < 4 then none
  else
    let b := 9 * (region % 4)
    if region < 8 then some (if off < 2 ^ 21 then 9 + b else 10 + b)
    else if region < 12 then some (5 + b + off / 2 ^ 20)
    else if region < 16 then some (4 + b)
    else if region < 20 then some (3 + b)
    else some (2 + b)

/-- Bytes a region holds (Table TD-4); region 0 is judged by its capacity. -/
def regionSize (region : Nat) : Nat :=
  if region = 1 then 12 * 2 ^ 20
  else if region < 12 then 2 ^ 22
  else if region < 16 then 3 * 2 ^ 19
  else 2 ^ 18

end Sys2Proof.Machine
end

