-- ==== Sys2Proof/Machine/Slots.lean ====
section
/-! DEFINITION. The stream table entry and the slot header as they lie in memory (Table SS-1, Table SS-3),
and the place of a slot's halves (R55). -/

namespace Sys2Proof.Machine

/-- Lifecycle states of a stream (Table SS-1). -/
inductive Life where
  | free
  | banked
  | resident
  | sealed
  | ending
  /-- Codes 5 to 7, not used. -/
  | unused
  deriving DecidableEq, Repr

/-- Code of a lifecycle state. -/
def Life.code : Life → Nat
  | .free => 0
  | .banked => 1
  | .resident => 2
  | .sealed => 3
  | .ending => 4
  | .unused => 7

/-- Lifecycle state of a code. -/
def lifeOf (n : Nat) : Life :=
  match n with
  | 0 => .free
  | 1 => .banked
  | 2 => .resident
  | 3 => .sealed
  | 4 => .ending
  | _ => .unused

/-- A stream table entry (Table SS-1). -/
structure Entry where
  life : Life := .free
  part : Nat := 0
  size : Nat := 0
  pf : Bool := false
  seed : Nat := 0
  slot : Nat := 0
  gen : Nat := 0
  look : Nat := 0
  home : Nat := 0
  miss : Nat := 0
  bank : Nat := 0
  slen : Nat := 0
  ring : Nat := 0
  rsz : Nat := 0
  deriving DecidableEq, Repr

/-- A Bool as 0 or 1. -/
def b2n (b : Bool) : Nat := if b then 1 else 0

/-- The 32 bytes of an entry as a number. -/
def Entry.toNat (e : Entry) : Nat :=
  e.life.code * 2 ^ 29 + e.part * 2 ^ 26 + e.size * 2 ^ 23 + b2n e.pf * 2 ^ 22 + e.seed * 2 ^ 18 + e.slot
    + e.gen * 2 ^ 32 + e.home * 2 ^ 64 + e.look * 2 ^ 89 + e.miss * 2 ^ 96 + e.bank * 2 ^ 128
    + e.slen * 2 ^ 176 + e.ring * 2 ^ 192 + e.rsz * 2 ^ 240

/-- The entry that 32 bytes hold. -/
def entryOf (n : Nat) : Entry :=
  { life := lifeOf (bits n 31 29), part := bits n 28 26, size := bits n 25 23, pf := n.testBit 22,
    seed := bits n 21 18, slot := bits n 14 0, gen := bits n 63 32, look := bits n 95 89,
    home := bits n 88 64, miss := bits n 127 96, bank := bits n 175 128, slen := bits n 191 176,
    ring := bits n 239 192, rsz := bits n 247 240 }

/-- Region 0 offset of entry i (R47). -/
def State.entryOff (s : State) (i : Nat) : Nat := s.obj 0x4000 1 + 32 * i

/-- Stream table entry i. -/
def State.entry (s : State) (i : Nat) : Entry := entryOf (s.rdNat (memKey 0 (s.entryOff i)) 32)

/-- Whether partition p owns a local index (R50). -/
def State.inRange (s : State) (p i : Nat) : Bool :=
  let first := s.obj (0x4010 + p) 6
  decide (first ≤ i) && decide (i < first + s.obj (0x4010 + p) 7)

/-- Write stream table entry i. -/
def State.setEntry (s : State) (i : Nat) (e : Entry) : State :=
  s.wrBytes (memKey 0 (s.entryOff i)) (natLe e.toNat 32)

/-- Write an entry that names no slot: its `SLOT` is not valid, and what it reads as is open (Table SS-1, DESIGN
CHOICE, log 123). -/
def State.setLoose (s : State) (i : Nat) (e : Entry) : State :=
  let f := s.fresh
  f.1.setEntry i { e with slot := (Config.freeWord f.2).toNat % 2 ^ 15 }

/-- The entry becomes Free and keeps its `GEN`; no swap-in is in flight, and the spec names no other field (R53, DESIGN
CHOICE, log 123). -/
def State.freeEntry (s : State) (i gen : Nat) : State :=
  let f := s.fresh
  f.1.setEntry i { entryOf (Config.freeEntry f.2).toNat with life := .free, pf := false, gen }

/-- Local indices of the streams whose entry is Resident: listed bytes at byte 3 of an entry whose bits [7:5] are 2
(Table SS-1). -/
def State.residents (s : State) : List Nat :=
  let base := memKey 0 (s.entryOff 0)
  if !s.streams.tableSet then []
  else s.mem.filterMap fun c =>
    if base ≤ c.1 ∧ c.1 < base + 32 * Config.streamCount ∧ (c.1 - base) % 32 = 3 ∧ c.2.toNat / 32 = 2 then
      some ((c.1 - base) / 32)
    else none

/-- Resident streams of partition p. -/
def State.residentsOf (s : State) (p : Nat) : List Nat := s.residents.filter fun i => decide ((s.entry i).part = p)

/-- A slot header (Table SS-3). -/
structure Header where
  valid : Bool := false
  cur : Bool := false
  bound : Bool := false
  step : Bool := false
  rst : Bool := false
  tent : Bool := false
  stream : Nat := 0
  gen : Nat := 0
  batch : Nat := 0
  row : Nat := 0
  miss : Nat := 0
  cepoch : Nat := 0
  slen : Nat := 0
  deriving DecidableEq, Repr

/-- The first 24 bytes of a header as a number; `step` is the field `DONE`. -/
def Header.toNat (h : Header) : Nat :=
  b2n h.valid * 2 ^ 31 + b2n h.cur * 2 ^ 30 + b2n h.bound * 2 ^ 29 + b2n h.step * 2 ^ 28 + b2n h.rst * 2 ^ 27
    + b2n h.tent * 2 ^ 26 + h.stream + h.gen * 2 ^ 32 + h.row * 2 ^ 64 + h.batch * 2 ^ 80
    + h.miss * 2 ^ 96 + h.cepoch * 2 ^ 128 + h.slen * 2 ^ 176

/-- The header that 24 bytes hold. -/
def headerOf (n : Nat) : Header :=
  { valid := n.testBit 31, cur := n.testBit 30, bound := n.testBit 29, step := n.testBit 28,
    rst := n.testBit 27, tent := n.testBit 26, stream := bits n 17 0, gen := bits n 63 32,
    row := bits n 70 64, batch := bits n 95 80, miss := bits n 127 96, cepoch := bits n 175 128,
    slen := bits n 191 176 }

/-- Physical offset of slot i of partition p (R55). -/
def State.slotOff (s : State) (p i : Nat) : Nat := s.slotArea p + i * s.slotSize p

/-- Header of slot i of partition p. -/
def State.header (s : State) (p i : Nat) : Header := headerOf (s.rdNat (memKey 1 (s.slotOff p i)) 24)

/-- Write the header of slot i of partition p. -/
def State.setHeader (s : State) (p i : Nat) (h : Header) : State :=
  s.wrBytes (memKey 1 (s.slotOff p i)) (natLe h.toNat 24)

/-- Physical offset of half h of slot i of partition p. -/
def State.halfOff (s : State) (p i : Nat) (h : Bool) : Nat :=
  s.slotOff p i + 64 + (if h then s.halfSize p else 0)

/-- A slot is free: its quarter is on and it holds no stream (R67, R360). -/
def State.slotFree (s : State) (p i : Nat) : Bool :=
  !(s.header p i).valid && s.isOn (38 + s.slotOff p i / (3 * 2 ^ 20))

/-- Key of byte x of seed vector k of partition p (R66). -/
def State.seedKey (s : State) (p k x : Nat) : Nat :=
  let a := s.obj (0x4010 + p) 4
  memKey (bits a 52 48) (bits a 47 0 + k * s.seedStride p + x)

end Sys2Proof.Machine
end

