-- ==== Sys2Proof/Machine/Access.lean ====
section
/-! DEFINITION. The bus matrix: windows, paths, fences, scrubs, ownership, State Store views, the Shared
Cache's tags, SEC-DED, and the accesses the units make through it (R223 to R248, R283, R288, R57 to R59). -/

namespace Sys2Proof.Machine

/-- A request as the matrix judges it: a piece of at most 64 bytes within one 64-byte line. -/
structure Rq where
  master : Nat
  /-- PART byte: [2:0] partition, [3] device-wide (R438). -/
  who : BitVec 8
  id : Nat := 0
  /-- Origin chip of a request that came over Trellis (R231). -/
  origin : Option (BitVec 7) := none
  addr : Nat
  len : Nat
  rd : Bool
  wr : Bool
  deriving DecidableEq, Repr

/-- The partition a request carries. -/
def Rq.part (r : Rq) : Nat := r.who.toNat % 8
/-- A device-wide request of the Keeper (R438). -/
def Rq.wide (r : Rq) : Bool := r.who.toNat.testBit 3

/-- The place a request reaches. -/
inductive Place where
  /-- Bytes at a key of memory. -/
  | mem (key : Nat)
  /-- An offset of register space, at T6. -/
  | reg (off : Nat)
  /-- Another device, through T7. -/
  | remote (chip : BitVec 7)
  deriving DecidableEq, Repr

/-- Why a request gets an error response: its code and, for 0x0802, the deciding window (R252). -/
abbrev Denial := Nat × Nat

/-- No deciding window (R252). -/
def noWindow : Nat := 0xFFFFFFFF

/-! ### Windows (R228 to R230) -/

/-- Window w. -/
def State.window (s : State) (w : Nat) : Nat := s.obj 0x3200 (w + 1)

/-- Whether a window is enabled and holds an offset of a region (R229). -/
def windowHits (v region off : Nat) : Bool :=
  v.testBit 143 && decide (bits v 52 48 = region) && decide (bits v 47 0 ≤ off) &&
    decide (off < bits v 47 0 + bits v 127 64)

/-- The deciding window: the lowest-numbered one hit (R229). -/
def State.deciding (s : State) (region off : Nat) : Option Nat :=
  (List.range 64).find? fun w => windowHits (s.window w) region off

/-- Paths of Table MM-3. -/
def hasPath (m t : Nat) : Bool :=
  if m ≤ 3 then decide (t ≤ 7)
  else if m ≤ 8 then decide (t ≤ 5) || decide (t = 7)
  else if m = 9 then decide (t ≤ 6)
  else if m ≤ 11 then decide (t ≤ 7)
  else if m = 12 then decide (t = 5) || decide (t = 8)
  else decide (t ≤ 5) || decide (t = 8)

/-- Whether a window grants a request (R230, R438). -/
def windowGrants (v : Nat) (r : Rq) : Bool :=
  (!r.rd || ((bits v 191 178).testBit r.master && (r.wide || (bits v 151 144).testBit r.part))) &&
  (!r.wr || ((bits v 175 162).testBit r.master && (r.wide || (bits v 159 152).testBit r.part)))

/-! ### What stands in front of the memories -/

/-- Whether a key lies in a span being scrubbed (R288). -/
def State.scrubbing (s : State) (k : Nat) : Bool :=
  s.scrubs.any fun c => c.spans.any fun p => decide (p.1 ≤ k) && decide (k < p.1 + p.2)

/-- Whether partition p owns a byte of a bed memory or a physical State Store offset (R283, R106). -/
def State.ownsByte (s : State) (p region off : Nat) : Bool :=
  let b := region % 4
  if region = 1 then s.owns p 4 (off / 2 ^ 16)
  else if region < 8 then s.owns p 3 (64 * b + off / 2 ^ 16)
  else if region < 12 then s.owns p 1 (4 * b + off / 2 ^ 20)
  else if region < 16 then s.owns p 1 (4 * b + off / (384 * 2 ^ 10))
  else if region < 20 then s.owns p 5 (4 * b + off / 2 ^ 16)
  else true

/-- Whether a write touches accumulator rows or a weight bank that a running MATMUL uses, by another master than
its bed's (R139). -/
def State.heldBytes (s : State) (r : Rq) (region off : Nat) : Bool :=
  r.wr && decide (8 ≤ region) && decide (region < 16) && decide (r.master ≠ 4 + region % 4) &&
    s.queues.any fun e => match e.2.run with
      | some n => n.held.any fun h =>
          decide (memKey region off < h.1 + h.2) && decide (h.1 < memKey region off + r.len)
      | none => false

/-- Fence, then scrub, then ownership, then a MATMUL's hold, at a bed port or the State Store port (R240, R288,
R283, R139). -/
def State.portDenies (s : State) (r : Rq) (region off : Nat) : Option Nat :=
  match memDomain region off with
  | some d =>
    if !s.isOn d then some 0x0803
    else if s.scrubbing (memKey region off) then some 0x0B02
    else if !r.wide && !s.ownsByte r.part region off then some 0x0802
    else if s.heldBytes r region off then some 0x0802
    else none
  | none => none

/-- Whether a physical read lies in a 64-byte slot header of some partition (R57). -/
def State.inHeader (s : State) (off len : Nat) : Bool :=
  match s.areaOwner off with
  | some p => decide ((off - s.slotArea p) % s.slotSize p + len ≤ 64)
  | none => false

/-- A State Store request (R57 to R59, R273): the key reached, or a denial. Code 0x0504 marks a working-view write
at or beyond `SLEN`, and so any beyond the half, which the writing unit raises (R59). -/
def State.storeView (s : State) (r : Rq) (off : Nat) : Except Nat Nat :=
  let view := bits off 25 24
  let o := off % 2 ^ 24
  if off ≥ 2 ^ 26 || decide (o ≥ 12 * 2 ^ 20) then .error 0x0801
  else if view = 0 then
    if r.master = 8 || r.master = 11 || (r.master = 13 && !r.wr && s.inHeader o r.len) then
      match s.portDenies r 1 o with
      | some c => .error c
      | none => .ok (memKey 1 o)
    else .error 0x0802
  else if view = 3 then .error 0x0802
  else match s.areaOwner o with
    | none => .error 0x0802
    | some p =>
      let slot := (o - s.slotArea p) / s.slotSize p
      let x := (o - s.slotArea p) % s.slotSize p
      match s.portDenies r 1 (s.slotOff p slot) with
      | some c => .error c
      | none =>
        let h := s.header p slot
        if view = 1 then
          if r.wr || !h.valid || h.tent || decide (x + r.len > s.halfSize p) then .error 0x0802
          else if h.rst then .ok (s.seedKey p (s.entry h.stream).seed x)
          else .ok (memKey 1 (s.halfOff p slot h.cur + x))
        else if r.rd || !h.bound || h.step || (tget s.streams.steps p {}).judged.isSome then .error 0x0802
        else if x + r.len > Min.min h.slen (s.halfSize p) then .error 0x0504
        else .ok (memKey 1 (s.halfOff p slot (!h.cur) + x))

/-- Whether a bed's units reach a region by their own ports (Table EL-2): their Bed Store, accumulator memory and
operand cache. No window stands in front of them (DEDUCED, log 42). -/
def ownPort (m region : Nat) : Bool :=
  decide (4 ≤ m) && decide (m ≤ 7) && (region = m || region = m + 8 || region = m + 12)

/-- The stream table's rule beside its window: only the State Mover and the Keeper write it, and another master reads
the entries of its own partition, those of the partition's index range (R48, R50, R282, DEDUCED, log 139). -/
def State.tableDenies (s : State) (r : Rq) (off : Nat) : Bool :=
  let base := s.entryOff 0
  s.streams.tableSet && decide (r.master ≠ 8) && decide (r.master ≠ 11) && decide (base ≤ off) &&
    decide (off < base + 32 * Config.streamCount) &&
    (r.wr || !(s.inRange r.part ((off - base) / 32) && s.inRange r.part ((off - base + r.len - 1) / 32)))

/-- An offset beyond what a region holds: it hits no window (R91, Table TD-4). Region 0 is judged by its capacity at T5
(R247), region 3 by its window (R232, R234); a State Store offset counts within its view (R57). -/
def beyondRegion (region off : Nat) : Bool :=
  if region = 0 || region = 3 then false
  else if region = 1 then decide (off ≥ 2 ^ 26) || decide (off % 2 ^ 24 ≥ regionSize 1)
  else region < 4 || region ≥ 24 || decide (off ≥ regionSize region)

/-- T5 is fenced: no Shared Cache half is on, or the matrix's or the memory controllers' domain is not (Table PW-1,
R240, R243, R362). -/
def State.memoryFenced (s : State) : Bool := !(s.isOn 42 || s.isOn 43) || !s.isOn 1 || !s.isOn 44

/-- The place a request reaches, or why it gets an error response (R90, R91, R229 to R231, R240, R247, R248). -/
def State.resolve (s : State) (r : Rq) : Except Denial Place :=
  let chip := BitVec.ofNat 7 (bits r.addr 59 53)
  let region := bits r.addr 52 48
  let off := bits r.addr 47 0
  if r.addr ≥ 2 ^ 61 then .error (0x0801, noWindow)
  else if !r.addr.testBit 60 && chip ≠ s.chip then
    if hasPath r.master 7 then .ok (.remote chip) else .error (0x0801, noWindow)
  else if ownPort r.master region && decide (off < regionSize region) then
    match s.portDenies r region off with
    | some c => .error (c, noWindow)
    | none => .ok (.mem (memKey region off))
  else if beyondRegion region off then .error (0x0801, noWindow)
  else match s.deciding region off with
    | none => .error (0x0801, noWindow)
    | some w =>
      let v := s.window w
      if !hasPath r.master (bits v 131 128) then .error (0x0801, noWindow)
      else if !windowGrants v r then .error (0x0802, w)
      else if region = 3 then
        if s.isOn 1 then .ok (.reg off) else .error (0x0803, noWindow)
      else if region = 0 then
        if s.memoryFenced then .error (0x0803, noWindow)
        else if off ≥ s.obj 0x3400 5 then .error (0x0801, noWindow)
        else if v.testBit 136 && decide (off - bits v 47 0 ≥ bits v 127 64 / 8 * 7) then .error (0x0802, w)
        else if s.tableDenies r off then .error (0x0802, w)
        else .ok (.mem (memKey 0 off))
      else if region = 1 then
        match s.storeView r off with
        | .ok k => .ok (.mem k)
        | .error c => .error (c, if c = 0x0802 then w else noWindow)
      else match s.portDenies r region off with
        | some c => .error (c, if c = 0x0802 then w else noWindow)
        | none => .ok (.mem (memKey region off))

/-- First detail word of R252. -/
def Rq.detail (s : State) (r : Rq) : Nat :=
  r.master + (r.origin.getD s.chip).toNat * 2 ^ 8 + b2n r.origin.isSome * 2 ^ 15 + r.id % 256 * 2 ^ 16
    + b2n r.wr * 2 ^ 24

/-- The error response of the matrix or a target: its fault, the last-error block, the trace event
(R252, R439, Table TF-3). A 0x0504 is the writing unit's own: raised here for M8 to M13, by the bed controller and by the
engines themselves for M0 to M7 (R59, R98, R174; DEDUCED, log 54). -/
def State.denied (s : State) (r : Rq) (d : Denial) : State :=
  let det := r.detail s
  let ev (s : State) := s.emit 14 false r.who 0x40 (d.1 + det * 2 ^ 32) [r.addr, 0]
  if d.1 = 0x0801 || d.1 = 0x0802 then
    let s := { s with matrix := { s.matrix with lastError := {
      det := BitVec.ofNat 64 det, part := r.who, code := BitVec.ofNat 16 d.1,
      addr := BitVec.ofNat 64 r.addr, window := BitVec.ofNat 32 d.2 } } }
    ev (s.raise d.1 r.who r.master r.addr det d.2)
  else if d.1 = 0x0803 then ev (s.raise d.1 r.who r.master r.addr det d.2)
  else if d.1 = 0x0B02 then ev (s.raise d.1 r.who 0 r.addr)
  else if d.1 = 0x0504 && decide (8 ≤ r.master) then s.raise d.1 r.who r.master r.addr det
  else s

/-! ### Shared Cache tags (R242, R244, R292) -/

/-- A half holds lines: it is on, or its drain is under way (R243). -/
def State.halfUp (s : State) (h : Nat) : Bool :=
  match s.domain (42 + h) with
  | .on => true
  | .draining _ => true
  | _ => false

/-- Index of the set that holds a line of region 0, by half × 1,024 + set (R242). -/
def State.cacheSet (s : State) (line : Nat) : Nat :=
  if s.halfUp 0 && s.halfUp 1 then line % 2 * 1024 + line / 2 % 1024
  else (if s.halfUp 1 then 1024 else 0) + line % 1024

/-- The line that a way holds, by (half × 1,024 + set) × 16 + way. -/
def State.cacheWay (s : State) (k : Nat) : Option CacheLine := tget s.matrix.cache k none

/-- Where the cache holds a line of region 0. -/
def State.cacheSlot (s : State) (line : Nat) : Option Nat :=
  ((List.range 16).map (s.cacheSet line * 16 + ·)).find? fun k => decide ((s.cacheWay k).map (·.line) = some line)

/-- Key of the first byte of a way's 128 bytes of Shared Cache SRAM, which lies in no region (Table MM-1; a key of the
model's own beyond region 31). -/
def cacheSramKey (k : Nat) : Nat := memKey 41 (128 * k)

/-- Key of the Keeper's private SRAM, which lies in no region (Table MM-1; a key of the model's own). -/
def keeperKey (off : Nat) : Nat := memKey 40 off

/-- Whole words written lose their error (R223). -/
def State.eccClear (s : State) (k len : Nat) : State :=
  let lo := (k + 7) / 8
  let hi := (k + len) / 8
  if s.matrix.ecc = [] then s
  else { s with matrix := { s.matrix with ecc := tdrop s.matrix.ecc lo (hi - lo) } }

/-- Ways in which a partition's lines may allocate (R290, R292). -/
def State.cacheWays (s : State) (p : Nat) : List Nat :=
  let sealedMask (q : Nat) : Nat := if s.partObj q 13 ≠ 0 then s.partObj q 14 else 0
  if !s.locked then List.range 16
  else if s.partObj p 13 ≠ 0 then setList 16 (s.partObj p 14)
  else (List.range 16).filter fun w => (List.range 8).all fun q => !(sealedMask q).testBit w

/-- The victim of tree pseudo-LRU among the allowed ways: `tree` bit n set points right at node n. -/
def plruVictim (tree : Nat) (ok : List Nat) : Nat :=
  let pick (node lo len : Nat) : Bool :=
    let left := ok.any fun w => decide (lo ≤ w) && decide (w < lo + len / 2)
    let right := ok.any fun w => decide (lo + len / 2 ≤ w) && decide (w < lo + len)
    if !left then true else if !right then false else tree.testBit node
  let g (st : Nat × Nat) (len : Nat) : Nat × Nat :=
    if pick st.1 st.2 len then (2 * st.1 + 2, st.2 + len / 2) else (2 * st.1 + 1, st.2)
  (g (g (g (g (0, 0) 16) 8) 4) 2).2

/-- The tree after way w is used: every node on its path points away from it. -/
def plruTouch (tree w : Nat) : Nat :=
  let node : List (Nat × Nat) := [(0, 3), (1 + w / 8, 2), (3 + w / 4, 1), (7 + w / 2, 0)]
  node.foldl (fun t n => setBits t n.1 n.1 (1 - bit w n.2)) tree

/-- A way takes a line, or a further access to the line it holds. -/
def State.cacheUse (s : State) (k : Nat) (l : CacheLine) : State :=
  { s with matrix := { s.matrix with
      cache := tset s.matrix.cache k (some l) none
      lru := tset s.matrix.lru (k / 16) (plruTouch (tget s.matrix.lru (k / 16) 0) (k % 16)) 0 } }

/-- The way in which partition p's new line is allocated: a free one, else the victim of tree pseudo-LRU (R242). -/
def State.cacheVictim (s : State) (p line : Nat) : Nat :=
  let set := s.cacheSet line
  let ok := s.cacheWays p
  set * 16 + ((ok.find? fun w => (s.cacheWay (set * 16 + w)).isNone).getD (plruVictim (tget s.matrix.lru set 0) ok))

/-- An access to a region 0 line: hit, or allocation of a way, and the dirty bit (R242); a line dirtied during a
write-back is marked (R244). -/
def State.cacheTouch (s : State) (p line : Nat) (wr : Bool) : State :=
  let late := wr && s.matrix.writeBack
  match s.cacheSlot line with
  | some k =>
    let l := (s.cacheWay k).getD { line, dirty := false }
    s.cacheUse k { l with dirty := wr || l.dirty, late := late || l.late }
  | none =>
    let k := s.cacheVictim p line
    (s.cacheUse k { line, dirty := wr, late }).eccClear (cacheSramKey k) 128

/-- The lines of half h are invalid (R243, R245). -/
def State.cacheDrop (s : State) (h : Nat) : State :=
  { s with matrix := { s.matrix with
      cache := tdrop s.matrix.cache (h * 16384) 16384, lru := tdrop s.matrix.lru (h * 1024) 1024 } }

/-- Put a line that stays valid into the set where it now lies; with no way free it is written back and leaves. -/
def State.cachePlace (s : State) (l : CacheLine) : State :=
  let set := s.cacheSet l.line
  match (List.range 16).find? fun w => (s.cacheWay (set * 16 + w)).isNone with
  | some w => s.cacheUse (set * 16 + w) l
  | none => s

/-- The lines that stay lie in the sets that R242 gives them after a half went off or came on. -/
def State.cacheRemap (s : State) : State :=
  (s.matrix.cache.filterMap (·.2)).foldl State.cachePlace { s with matrix := { s.matrix with cache := [], lru := [] } }

/-- Every dirty line written back; lines stay valid (R244, R245). -/
def State.cacheClean (s : State) : State :=
  { s with matrix := { s.matrix with
      cache := s.matrix.cache.map fun e => (e.1, e.2.map fun l => { l with dirty := false, late := false }) } }

/-- A write-back has passed every set: its lines are clean, but for those dirtied after it had passed theirs (R244; which
those are is a free value, log 93). -/
def State.cacheSwept (s : State) : State :=
  let f := s.fresh
  { f.1 with matrix := { f.1.matrix with
      cache := f.1.matrix.cache.map fun e => (e.1, e.2.map fun l =>
        { l with dirty := l.late && Config.passedSet f.2 l.line, late := false }) } }

/-! ### External memory (R247, R248) -/

/-- Channel of a region 0 offset (R247). -/
def State.channelOf (s : State) (off : Nat) : Nat := if s.obj 0x3400 1 = 3 then bit off 8 else bits off 9 8

/-- Subchannel of a region 0 offset (R247). -/
def subchannelOf (off : Nat) : Nat := bits off 11 10

/-- The subchannel 4c + s of the 128-byte line of a region 0 offset (R247, R252). -/
def State.dramUnit (s : State) (off : Nat) : Nat := 4 * s.channelOf off + subchannelOf off

/-- The inline ECC window that holds a region 0 offset, if its deciding window is one (R248). -/
def State.iecc (s : State) (off : Nat) : Option Nat := (s.deciding 0 off).filter fun w => (s.window w).testBit 136

/-- The region 0 line of the check bytes of an offset in an inline ECC window (R248). -/
def checkLine (v off : Nat) : Nat :=
  let base := bits v 47 0
  (base + bits v 127 64 / 8 * 7 + (off - base) / 64 * 8) / 128

/-! ### SEC-DED (R223, R224, R248) -/

/-- Whether a byte is protected: on-chip, or in an inline ECC window. -/
def State.protectedKey (s : State) (k : Nat) : Bool := decide (k ≥ 2 ^ 48) || (s.iecc k).isSome

/-- Unit instance and address of a word in error: the subchannel in external memory, else the memory's number, with the
word's local address, or its offset in a memory without a region (R252; DEDUCED, log 97). -/
def State.eccUnit (s : State) (k : Nat) : Nat × Nat :=
  if k < 2 ^ 48 then (s.dramUnit k, 2 ^ 60 + k)
  else if k < 32 * 2 ^ 48 then (k / 2 ^ 48, 2 ^ 60 + k) else (k / 2 ^ 48, k % 2 ^ 48)

/-- Read the error state of a 64-bit word: corrected, or a double-bit error (R223, R224, R248). -/
def State.eccWord (s : State) (who : BitVec 8) (w : Nat) : State × Bool :=
  let k := 8 * w
  let sub := if k ≥ 2 ^ 48 then 0 else 2
  let u := s.eccUnit k
  if !s.protectedKey k then (s, true)
  else match tget s.matrix.ecc w 0 with
    | 0 => (s, true)
    | 1 =>
      (({ s with matrix := { s.matrix with ecc := tset s.matrix.ecc w 0 0 } }.bump 0x7040 (1 + sub)).raise
        0x0901 who u.1 u.2, true)
    | _ =>
      (((s.bump 0x7040 (2 + sub)).setObj 0x7060 2 1).raise 0x0902 who u.1 u.2, false)

/-- Read the error states of the words that a span touches; false on a double-bit error. -/
def State.eccRead (s : State) (who : BitVec 8) (k len : Nat) : State × Bool :=
  if s.matrix.ecc = [] then (s, true)
  else (List.range ((k + len + 7) / 8 - k / 8)).foldl
    (fun a i => if a.2 then a.1.eccWord who (k / 8 + i) else a) (s, true)

/-! ### Accesses of the units -/

/-- The cache's part in an access at a key of region 0: the line, and the line of its check bytes (R242, R248). -/
def State.touchKey (s : State) (p k : Nat) (wr : Bool) : State :=
  if k < 2 ^ 48 then
    let t := s.cacheTouch p (k / 128) wr
    match s.iecc k with
    | some w => t.cacheTouch p (checkLine (s.window w) k) wr
    | none => t
  else s

/-- Key of the Shared Cache bytes that hold a byte of region 0; the byte's own key elsewhere. -/
def State.cachedKey (s : State) (k : Nat) : Nat :=
  if k < 2 ^ 48 then match s.cacheSlot (k / 128) with
    | some c => cacheSramKey c + k % 128
    | none => k
  else k

/-- Read the error states of a span where it lies, and of the Shared Cache's copy of it (R223). -/
def State.eccCheck (s : State) (who : BitVec 8) (k len : Nat) : State × Bool :=
  let e := s.eccRead who k len
  if e.2 && decide (k < 2 ^ 48) then e.1.eccRead who (e.1.cachedKey k) len else e

/-- The event of an error response with 0x0902 (Table TF-3). -/
def State.eccEvent (s : State) (r : Rq) : State := s.emit 14 false r.who 0x40 (0x0902 + r.detail s * 2 ^ 32) [r.addr, 0]

/-- Read bytes at a resolved key; a double-bit error is an error response with 0x0902 (R223, Table TF-3). -/
def State.fetchKey (s : State) (r : Rq) (k : Nat) : State × Except Nat (List Byte) :=
  let e := (s.touchKey r.part k false).eccCheck r.who k r.len
  if e.2 then (e.1, .ok (e.1.rdBytes k r.len))
  else (e.1.eccEvent r, .error 0x0902)

/-- The slot header that the State Store port reads to serve a request through the committed or the working view (R57 to
R59). -/
def State.headerKey (s : State) (r : Rq) : Option Nat :=
  let off := bits r.addr 47 0
  if bits r.addr 52 48 = 1 ∧ 1 ≤ bits off 25 24 then
    (s.areaOwner (off % 2 ^ 24)).map fun p =>
      memKey 1 (s.slotOff p ((off % 2 ^ 24 - s.slotArea p) / s.slotSize p))
  else none

/-- The place that a request reaches. At the State Store the port reads the slot's header on the way: a double-bit error
there is an error response with 0x0902, which no target repeats (R223). -/
def State.place (s : State) (r : Rq) : State × Except Denial Place :=
  match s.resolve r with
  | .ok (.mem k) =>
    (match s.headerKey r with
     | some h =>
       let e := s.eccRead r.who h 64
       if e.2 then (e.1, .ok (.mem k)) else (e.1.eccEvent r, .error (0x0902, noWindow))
     | none => (s, .ok (.mem k)))
  | x => (s, x)

/-- Write bytes at a resolved key. -/
def State.storeKey (s : State) (r : Rq) (k : Nat) (data : List Byte) : State :=
  let t := (s.touchKey r.part k true).wrBytes k data
  (t.eccClear k data.length).eccClear (t.cachedKey k) data.length

/-- The routing byte of a chip (R263). -/
def State.route (s : State) (chip : BitVec 7) : Nat := bits (s.obj 0x3300 4) (8 * chip.toNat + 7) (8 * chip.toNat)

/-- The port that a packet to a chip takes, if its route is valid and the port UP (R263, R264). -/
def State.routePort (s : State) (chip : BitVec 7) : Option Nat :=
  let b := s.route chip
  if b.testBit 7 && decide ((tget s.links (b % 8) {}).state = .up) then some (b % 8) else none

/-- 0x0A01 raised by link egress for a request without a route (R264, R280). -/
def State.noRoute (s : State) (who : BitVec 8) (chip : BitVec 7) (addr : Nat) : State :=
  let b := s.route chip
  s.raise 0x0A01 who (if b.testBit 7 then b % 8 else 0xFFFF) addr chip.toNat

/-- A local global address of a region. -/
def localAddr (region off : Nat) : Nat := 2 ^ 60 + memKey region off

end Sys2Proof.Machine
end

