-- ==== Sys2Proof/Machine/Links.lean ====
section
/-! DEFINITION. The Trellis link layer: packets and flits, sequence numbers, credits, sending and routing
(R254 to R264). -/

namespace Sys2Proof.Machine

/-- Buffer sizes C of R261, VC0 first. -/
def vcSize (vc : Nat) : Nat := [96, 96, 288, 32].getD vc 0

/-- Virtual channel of a packet (Table TL-3). -/
def PacketBody.vc : PacketBody → Nat
  | .rdReq _ => 0
  | .wrReq _ => 0
  | .atReq _ => 0
  | .rdRsp _ => 1
  | .wrRsp _ => 1
  | .atRsp _ => 1
  | .bulkRd _ => 2
  | .bulkWr _ => 2
  | .tick _ _ _ => 3
  | .vote _ => 3
  | .decide _ => 3
  | .query _ => 3
  | .answer _ => 3
  | .kppFwd _ => 3
  | .kppRsp _ => 3
  | .audit _ => 3

/-- Flits of a packet: 128 bytes each, the 16-byte header first. -/
def PacketBody.flits : PacketBody → Nat
  | .wrReq p => (16 + p.data.length + 127) / 128
  | .rdRsp p => (16 + p.data.length + 127) / 128
  | .bulkWr p => (16 + p.data.length + 127) / 128
  | _ => 1

/-- Destination chip of a packet that is routed. -/
def PacketBody.dest : PacketBody → Option (BitVec 7)
  | .rdReq p => some p.dest
  | .wrReq p => some p.dest
  | .atReq p => some p.dest
  | .rdRsp p => some p.dest
  | .wrRsp p => some p.dest
  | .atRsp p => some p.dest
  | .bulkRd p => some p.dest
  | .bulkWr p => some p.dest
  | .tick _ _ _ => none
  | .vote m => some m.dest
  | .decide m => some m.dest
  | .query m => some m.dest
  | .answer m => some m.dest
  | .kppFwd m => some m.dest
  | .kppRsp m => some m.dest
  | .audit _ => none

/-- A port. -/
def State.link (s : State) (l : Nat) : Link := tget s.links l {}
/-- Store a port. -/
def State.setLink (s : State) (l : Nat) (v : Link) : State := { s with links := tset s.links l v {} }

/-- Entry of a list over virtual channels. -/
def vcGet (l : List Nat) (vc : Nat) : Nat := l.getD vc 0

/-- Flits sent and not acknowledged (R259). -/
def Link.unacked (k : Link) : Nat := (k.txSeq - k.ack).toNat

/-- Whether a port can send a packet now: credits for all its flits, room in the replay buffer (R257, R259). -/
def Link.canSend (k : Link) (b : PacketBody) : Bool :=
  decide (b.flits ≤ vcGet k.credits b.vc) && decide (k.unacked + b.flits ≤ 512)

/-- Credits held after a packet is paid for. -/
def Link.pay (k : Link) (b : PacketBody) : List Nat := k.credits.set b.vc (vcGet k.credits b.vc - b.flits)

/-- A packet as it goes out: an AUDIT carries the counts of that moment (R262), and a tick's correction the cycles it
waited since `since` (R271). -/
def Link.stamp (k : Link) (b : PacketBody) (waited : Nat) : PacketBody :=
  match b with
  | .audit _ => .audit { held := (k.pay b).map (BitVec.ofNat 16), returned := k.seen }
  | .tick e ph c => .tick e ph (c + BitVec.ofNat 32 waited)
  | _ => b

/-- Put a packet that has waited since a cycle on the wire (R257 to R259, R261). -/
def State.transmit (s : State) (l : Nat) (b : PacketBody) (since : Nat) : State :=
  let k := s.link l
  let b := k.stamp b (s.cycle - since)
  let x : Sent := { seq := k.txSeq, body := b }
  let s := s.setLink l { k with
    txSeq := k.txSeq + BitVec.ofNat 12 b.flits,
    replay := k.replay ++ [x],
    credits := k.pay b }
  { s with outputs := { s.outputs with links := s.outputs.links ++ [(l, x)] } }

/-- Add to an entry of a list of 16-bit counts over virtual channels. -/
def vcAdd (l : List (BitVec 16)) (vc n : Nat) : List (BitVec 16) :=
  l.set vc (l.getD vc 0 + BitVec.ofNat 16 n)

/-- n flits leave the receive buffer of a port, to M9 or to another port: their credits return (R261). -/
def State.leaveBuffer (s : State) (l vc n : Nat) : State :=
  let k := s.link l
  s.setLink l { k with
    occupied := k.occupied.set vc (vcGet k.occupied vc - n), returned := vcAdd k.returned vc n }

/-- A packet that a port has sent or discarded no longer stands in the buffer of its input port. -/
def State.leaveOrigin (s : State) (x : Queued) : State :=
  match x.origin with
  | some l => s.leaveBuffer l x.body.vc x.body.flits
  | none => s

/-- Send on a port, or queue behind earlier packets of its channel (R257); a packet forwarded from an input port stays in
that port's buffer until it is sent (R261). -/
def State.sendOn (s : State) (l : Nat) (b : PacketBody) (origin : Option Nat := none) : State :=
  let k := s.link l
  let x : Queued := { body := b, origin, since := s.cycle }
  if k.canSend b && k.queued.all fun y => decide (y.body.vc ≠ b.vc) then (s.transmit l b s.cycle).leaveOrigin x
  else s.setLink l { k with queued := k.queued ++ [x] }

/-- Partition of a packet of the request and response channels. -/
def PacketBody.part : PacketBody → Option Part
  | .rdReq p => some p.part
  | .wrReq p => some p.part
  | .atReq p => some p.part
  | .rdRsp p => some p.part
  | .wrRsp p => some p.part
  | .atRsp p => some p.part
  | .bulkRd p => some p.part
  | .bulkWr p => some p.part
  | _ => none

/-- Place in the round of 64 codewords of 25.6 ns (R293). -/
def codeword (c : Nat) : Nat := c * 5 / 128 % 64

/-- The partition to which a port's present codeword is laid out, with the lock set; none for a codeword of the VC3 and an
unassigned one (R293). -/
def State.codewordOwner (s : State) (l : Nat) : Option Nat :=
  let w := codeword s.cycle
  let i := w - w / 16 - 1
  if w % 16 = 0 || !s.locked then none
  else
    let share (p : Nat) : Nat := bits (s.partObj p 9) (8 * l + 7) (8 * l)
    (List.range 8).find? fun p =>
      let lo := ((List.range p).map share).sum
      decide (lo ≤ i) && decide (i < lo + share p)

/-- The queued packet a port sends next: VC3, then VC1, then VC0 and VC2, the oldest of its channel; of a VC0 and a VC2
packet the one whose partition the present codeword is laid out to, else the older (R257, R293, DEDUCED, log 95). -/
def State.nextQueued (s : State) (l : Nat) : Option Queued :=
  let k := s.link l
  let front (vc : Nat) := (k.queued.find? fun x => decide (x.body.vc = vc)).filter fun x => k.canSend x.body
  let mine (x : Queued) : Bool := decide (x.body.part.map (·.val) = s.codewordOwner l)
  front 3 <|> front 1 <|> (match front 0, front 2 with
    | some a, some b =>
      if (s.codewordOwner l).isSome && mine a != mine b then (if mine a then some a else some b)
      else k.queued.find? fun x => decide (x = a) || decide (x = b)
    | a, b => a <|> b)

/-- Send queued packets while one can go. -/
def State.drainLink (s : State) (l : Nat) : Nat → State
  | 0 => s
  | n + 1 =>
    match s.nextQueued l with
    | some x =>
      let k := s.link l
      (((s.setLink l { k with queued := k.queued.erase x }).transmit l x.body x.since).leaveOrigin x).drainLink l n
    | none => s

/-- Route and send a response or a VC3 packet; one that cannot be routed is counted in 0x7054:01 (R264). -/
def State.sendRouted (s : State) (b : PacketBody) : State :=
  match b.dest.bind s.routePort with
  | some l => s.sendOn l b
  | none => s.bump 0x7054 1

/-! ### Remote requests (R256, R264, R266) -/

/-- The first tag from t on that is neither in use nor retired (R266; ascending, DESIGN CHOICE, log 30). -/
def State.freeTag (s : State) (t : BitVec 16) : Nat → BitVec 16
  | 0 => t
  | n + 1 => if (s.remote.any fun x => decide (x.tag = t)) ||
      (s.retired.any fun x => decide (x.1 = t) && decide (s.cycle < x.2)) then s.freeTag (t + 1) n else t

/-- The request packet of an operation. -/
def State.packetOf (s : State) (dest : BitVec 7) (p : Part) (qos : Nat) (tag : BitVec 16) (addr : W64) (len : Nat)
    (op : Op) : PacketBody :=
  let base : Packet := {
    dest, src := s.chip, part := p, error := false, qos := BitVec.ofNat 4 qos, tag,
    addr := BitVec.ofNat 56 (addr.toNat % 2 ^ 53), len := BitVec.ofNat 16 len, data := [],
    atomic := .add, operand := 0, compare := 0 }
  match op with
  | .read => .rdReq base
  | .write d => .wrReq { base with data := d }
  | .atomic o x y => .atReq { base with atomic := o, operand := x, compare := y }

/-- Send a request packet to another device and wait for its response; without a route or an UP port, the
code 0x0A01, raised by link egress (R264). -/
def State.sendRemote (s : State) (p : Part) (addr : W64) (mk : BitVec 16 → PacketBody) (use : RemoteUse)
    (flits : Nat := 1) : State × Bool :=
  let chip := BitVec.ofNat 7 (bits addr.toNat 59 53)
  match s.routePort chip with
  | none => (s.noRoute (partByte p) chip addr.toNat, false)
  | some l =>
    let tag := s.freeTag s.nextTag (s.remote.length + s.retired.length + 1)
    let rr : RemoteRequest := { tag, part := p, port := l, dest := chip, addr, flits, use }
    let s := { s with nextTag := tag + 1, remote := s.remote ++ [rr] }
    (s.sendOn l (mk tag), true)

/-! ### Control flits sent (R255, R258) -/

/-- The control flit that restates a port's counts. -/
def Link.flit (k : Link) (nak : Bool) : ControlFlit := { ack := k.rxSeq, nak, returned := k.returned }

/-- Send a control flit; one goes out after each packet that arrives, and so no later than R255 asks (DESIGN CHOICE,
log 144). -/
def State.sendControl (s : State) (l : Nat) (f : ControlFlit) : State :=
  { s with outputs := { s.outputs with controls := s.outputs.controls ++ [(l, f)] } }

/-! ### Packets that arrive (R258, R261, R263, R264) -/

/-- A packet of n flits arrives on a port with first sequence number q (R258): its flits before E are duplicates, those
from E on are accepted into their buffer, and with a first flit beyond E there is a gap, which one `NAK` reports. -/
def State.acceptFlits (s : State) (l : Nat) (q : BitVec 12) (n vc : Nat) : State × Bool :=
  let k := s.link l
  if k.state ≠ .up then (s, false)
  else
    let back := (k.rxSeq - q).toNat
    if back < n then
      let s := if back = 0 then s else s.bump 0x7051 (l + 1) back
      (s.setLink l { k with rxSeq := k.rxSeq + BitVec.ofNat 12 (n - back), gap := false,
                            occupied := k.occupied.set vc (vcGet k.occupied vc + n) }, true)
    else if back ≤ 2048 then
      let s := s.bump 0x7051 (l + 1) n
      (s.sendControl l (k.flit false), false)
    else if k.gap then (s, false)
    else ((s.setLink l { k with gap := true }).sendControl l (k.flit true), false)

/-- The response packet to a request. -/
def PacketBody.answerTo (b : PacketBody) (chip : BitVec 7) (r : Reply) : Option PacketBody :=
  let mk (p : Packet) : Packet :=
    let a : Packet := { p with dest := p.src, src := chip, error := false, data := [], len := 0 }
    match r with
    | .data l => { a with data := l, len := BitVec.ofNat 16 l.length }
    | .error c => { a with error := true, len := c }
  match b with
  | .rdReq p => some (.rdRsp (mk p))
  | .bulkRd p => some (.rdRsp (mk p))
  | .wrReq p => some (.wrRsp (mk p))
  | .bulkWr p => some (.wrRsp (mk p))
  | .atReq p => some (.atRsp (mk p))
  | _ => none

/-- Send the response to a request packet. -/
def State.sendAnswer (s : State) (b : PacketBody) (r : Reply) : State :=
  match b.answerTo s.chip r with
  | some a => s.sendRouted a
  | none => s

/-- The header of a request packet. -/
def PacketBody.request : PacketBody → Option Packet
  | .rdReq p => some p
  | .wrReq p => some p
  | .atReq p => some p
  | .bulkRd p => some p
  | .bulkWr p => some p
  | _ => none

/-- A packet for another device: it goes on to the port that its route names; a request without one is answered with
0x0A01, anything else discarded and counted (R263, R264). -/
def State.forward (s : State) (l : Nat) (b : PacketBody) (dest : BitVec 7) : State :=
  match s.routePort dest with
  | some o => s.sendOn o b (some l)
  | none =>
    (match b.request with
     | some p =>
       (s.noRoute (partByte p.part) dest (dest.toNat * 2 ^ 53 + p.addr.toNat % 2 ^ 53)).sendAnswer b (.error 0x0A01)
     | none => s.bump 0x7054 1).leaveBuffer l b.vc b.flits

/-- Act on a packet if it is accepted: forward it, or do what it asks of this SX4; its buffer is then free, and a control
flit restates the port's counts (R255, R258, R261, R263). -/
def State.onPacket (s : State) (l : Nat) (q : BitVec 12) (b : PacketBody) (f : State → State) : State :=
  match s.acceptFlits l q b.flits b.vc with
  | (s, true) =>
    let own := match b.dest with
      | some c => decide (c = s.chip)
      | none => true
    let t := if own then
        let u := f s
        if (u.link l).state = .up then u.leaveBuffer l b.vc b.flits else u
      else s.forward l b (b.dest.getD 0)
    t.sendControl l ((t.link l).flit false)
  | (s, false) => s

end Sys2Proof.Machine
end

