-- ==== Sys2Proof/Machine/Doorbells.lean ====
section
/-! DEFINITION. Doorbells and pushes, and the queue register block (R110 to R113, R116). -/

namespace Sys2Proof.Machine

/-- Move `REL` with `TAIL` outside held mode (R116). -/
def State.followTail (s : State) (q : Nat) : State :=
  if s.qHeld q then s else s.setQueue q { s.queue q with rel := (s.queue q).tail }

/-- `TAIL` of a queue before the cycle c, of what was pushed up to now (R36). -/
def Queue.tailAt (k : Queue) (c : Nat) : W32 := if k.pushCycle = c then k.tailBefore else k.tail

/-- Push n entries: `TAIL` and, outside held mode, `REL`. -/
def State.pushed (s : State) (q n : Nat) : State :=
  let k := s.queue q
  (s.setQueue q { k with tail := k.tail + BitVec.ofNat 32 n, pushCycle := s.cycle,
                         tailBefore := k.tailAt s.cycle }).followTail q

/-- 0x0401 for a refused push or doorbell (R127); `REFUSED` counts it (Table QD-4). -/
def State.overflow (s : State) (q det1 : Nat) : State :=
  let k := s.queue q
  (s.setQueue q { k with refused := k.refused + 1 }).raise 0x0401 (partByte (s.qPart q)) 0
    (s.qEntry q k.tail.toNat) (q + k.tail.toNat * 2 ^ 32) det1

/-- A doorbell value T (R112). -/
def State.doorbellValue (s : State) (q : Nat) (t : W32) : State :=
  let k := s.queue q
  let n := (t - k.tail).toNat
  if n = 0 then s
  else if n ≥ 2 ^ 31 then s.setQueue q { k with stale := k.stale + 1 }
  else if n ≤ s.credits q then s.pushed q n
  else s.overflow q t.toNat

/-- A write of `width` bytes at an offset of a queue's register block (R111, R112, R113): the state, and the
denial of a doorbell to a queue that threads push. -/
def State.blockWrite (s : State) (q off width : Nat) (v : W64) : State × Bool :=
  if off = 0 && width ≥ 4 then
    if s.qDoorbell q then (s.doorbellValue q (v.setWidth 32), false) else (s, true)
  else if off < 4 && width ≥ 1 then
    let k := s.queue q
    (s.setQueue q { k with stale := k.stale + 1 }, false)
  else (s, false)

/-- The 64 bytes of a queue's register block (Table QD-4). -/
def State.blockImage (s : State) (q : Nat) : List Byte :=
  let k := s.queue q
  natLe k.tail.toNat 4 ++ natLe k.head.toNat 4 ++ natLe (s.credits q) 4 ++ natLe k.rel.toNat 4
    ++ natLe k.disp.toNat 4 ++ natLe k.stale.toNat 4 ++ natLe k.refused.toNat 4 ++ zeros 36

end Sys2Proof.Machine
end

