-- ==== Sys2Proof/Machine/Registers.lean ====
section
/-! DEFINITION. Register space, region 3: Almanac pages, queue blocks, windows, matrix control, Shared Cache
control, the alert post register (R33, R113, R228 to R234, R241, R244, R315, R439). -/

namespace Sys2Proof.Machine

/-! ### Almanac pages (R33) -/

/-- Page 1 is A, page 2 is B. -/
def State.page (s : State) (n : Nat) : Table (BitVec 128) := if n = 2 then s.almanac.pageB else s.almanac.pageA
/-- Header of a page. -/
def State.pageHead (s : State) (n : Nat) : BitVec 128 := if n = 2 then s.almanac.headB else s.almanac.headA
/-- The active page. -/
def State.activePage (s : State) : Nat := s.obj 0x2103 1

/-- Entry i of a page. -/
def State.pageEntry (s : State) (n i : Nat) : Nat := (tget (s.page n) i 0).toNat

/-- Store entry i of a page, its reserved bits too, so that reason 2 of R42 can find them (beside R6; DEDUCED, log 140). -/
def State.setPageEntry (s : State) (n i v : Nat) : State :=
  let m := tset (s.page n) i (BitVec.ofNat 128 v) 0
  { s with almanac := if n = 2 then { s.almanac with pageB := m } else { s.almanac with pageA := m } }

/-- Store a page header, its reserved bits too (R42 reason 2, beside R6; DEDUCED, log 140). -/
def State.setPageHead (s : State) (n v : Nat) : State :=
  let h := BitVec.ofNat 128 v
  { s with almanac := if n = 2 then { s.almanac with headB := h } else { s.almanac with headA := h } }

/-- Page and entry (1,024 the header) of an offset in the Almanac range. -/
def pageSpot (o : Nat) : Nat × Nat :=
  if o < 0x8000 then (1 + o / 0x4000, o % 0x4000 / 16) else (1 + (o - 0x8000) / 16, 1024)

/-- The 16 bytes at a page spot. -/
def State.spotValue (s : State) (x : Nat × Nat) : Nat :=
  if x.2 = 1024 then (s.pageHead x.1).toNat else s.pageEntry x.1 x.2

/-- Store 16 bytes at a page spot. -/
def State.setSpot (s : State) (x : Nat × Nat) (v : Nat) : State :=
  if x.2 = 1024 then s.setPageHead x.1 v else s.setPageEntry x.1 x.2 v

/-- A page may be written: inactive, and no exchange validating or pending (R33). -/
def State.pageOpen (s : State) (n : Nat) : Bool :=
  decide (n ≠ s.activePage) && decide (s.obj 0x2103 3 ≠ 1) && decide (s.obj 0x2103 3 ≠ 2)

/-- A partition's entry range holds index i (Table PG-1 sub 07). -/
def State.entryRange (s : State) (p i : Nat) : Bool :=
  let r := s.partObj p 7
  decide (bits r 25 16 ≤ i) && decide (i < bits r 25 16 + bits r 10 0)

/-! ### Windows (R232, R233) -/

/-- A window with its reserved bits zero (R6). -/
def windowMask (v : Nat) : Nat :=
  bits v 191 178 * 2 ^ 178 + bits v 175 162 * 2 ^ 162 + bits v 159 143 * 2 ^ 143 + bit v 136 * 2 ^ 136
    + bits v 131 128 * 2 ^ 128 + bits v 127 0

/-- Target of a region (R232). -/
def regionTarget (region : Nat) : Nat :=
  if region = 0 then 5 else if region = 1 then 4 else if region = 3 then 6 else region % 4

/-- The consistency of a window (R232). -/
def windowConsistent (v : Nat) : Bool :=
  let base := bits v 63 0
  let region := bits base 52 48
  let off := bits base 47 0
  let size := bits v 127 64
  let iecc := v.testBit 136
  !v.testBit 143 ||
    (decide (base < 2 ^ 53) && decide (region ≠ 2) && decide (region < 24) && decide (off % 4096 = 0)
      && decide (size % 4096 = 0) && decide (size ≠ 0) && decide (off + size ≤ 2 ^ 48)
      && (decide (region ≠ 3) || decide (off + size ≤ 2 ^ 24))
      && decide (bits v 131 128 = regionTarget region)
      && (!iecc || (decide (region = 0) && isPow2 size && decide (2 ^ 16 ≤ size))))

/-! ### Reading -/

/-- The range of Table MM-6 that holds an offset: its first offset and its length. -/
def regRange (off : Nat) : Option (Nat × Nat) :=
  [(0x00100000, 0x8020), (0x00110000, 0x800), (0x00120000, 0x800), (0x00121000, 0x100), (0x00130000, 0x100),
    (0x00140000, 0x4000), (0x00150000, 8)].find? fun e => decide (e.1 ≤ off) && decide (off < e.1 + e.2)

/-- The last-error block (Table MM-15). -/
def LastError.image (e : LastError) : List Byte :=
  natLe e.det.toNat 8 ++ [e.part] ++ zeros 3 ++ natLe e.code.toNat 2 ++ zeros 2 ++ natLe e.addr.toNat 8
    ++ natLe e.window.toNat 4 ++ zeros 36

/-- Byte o of the matrix control range (Table MM-8). -/
def State.controlByte (s : State) (o : Nat) : Byte :=
  BitVec.ofNat 8 (
    if o < 14 then s.obj 0x3200 (0x42 + o)
    else if 0x10 ≤ o ∧ o < 0x1A then s.obj 0x3200 (0x50 + (o - 0x10))
    else if 0x20 ≤ o ∧ o < 0x32 then s.obj 0x3200 0x5B / 2 ^ (8 * (o - 0x20))
    else if 0x40 ≤ o ∧ o < 0x80 then field s.matrix.lastError.image (o - 0x40) 1
    else 0)

/-- One byte of register space. -/
def State.regByte (s : State) (off : Nat) : Byte :=
  match regRange off with
  | some (0x00100000, _) =>
    BitVec.ofNat 8 (s.spotValue (pageSpot (off - 0x00100000)) / 2 ^ (8 * (off % 16)))
  | some (0x00110000, _) => BitVec.ofNat 8 (field (s.blockImage ((off - 0x00110000) / 64)) (off % 64) 1)
  | some (0x00120000, _) => BitVec.ofNat 8 (s.window ((off - 0x00120000) / 32) / 2 ^ (8 * (off % 32)))
  | some (0x00121000, _) => s.controlByte (off - 0x00121000)
  | some (0x00130000, _) => if off = 0x00130004 then BitVec.ofNat 8 (b2n s.matrix.writeBack) else 0
  | _ => 0

/-- An access lies in one range of Table MM-6. -/
def regOk (off len : Nat) : Bool :=
  match regRange off with
  | some (b, n) => decide (off + len ≤ b + n)
  | none => false

/-- The error response of T6 with the window that let the request through (R234, R252). -/
def State.regDenied (s : State) (r : Rq) (off code : Nat) : State :=
  s.denied r (code, if code = 0x0802 then (s.deciding 3 off).getD noWindow else noWindow)

/-- A read of register space. -/
def State.regRead (s : State) (r : Rq) (off : Nat) : State × Except Nat (List Byte) :=
  if !regOk off r.len then (s.regDenied r off 0x0801, .error 0x0801)
  else if off ≥ 0x00150000 then (s.regDenied r off 0x0802, .error 0x0802)
  else (s, .ok ((List.range r.len).map fun i => s.regByte (off + i)))

/-! ### Writing -/

/-- A value of w bytes with bytes replaced from offset o. -/
def patchNat (v w o : Nat) (data : List Byte) : Nat := leNat (patch (natLe v w) o data)

/-- The units of size `n` that a write of len bytes at offset o touches: number, offset inside, bytes. -/
def touched (n o : Nat) (data : List Byte) : List (Nat × Nat × List Byte) :=
  ((List.range ((o + data.length + n - 1) / n - o / n)).map fun i =>
    let k := o / n + i
    let lo := Max.max o (k * n)
    let hi := Min.min (o + data.length) ((k + 1) * n)
    (k, lo - k * n, (data.drop (lo - o)).take (hi - lo)))

/-- Write of the Almanac range (R33): every byte on a page open for writing; a partition's masters only the
entries that the partition owns. -/
def State.pageWrite (s : State) (r : Rq) (o : Nat) (data : List Byte) : State × Bool :=
  let ts := (touched 16 o data).map fun x => (pageSpot (16 * x.1), x.2)
  if ts.all fun x => s.pageOpen x.1.1 && (r.wide || (decide (x.1.2 < 1024) && s.entryRange r.part x.1.2)) then
    (ts.foldl (fun s x => s.setSpot x.1 (patchNat (s.spotValue x.1) 16 x.2.1 x.2.2)) s, true)
  else (s, false)

/-- Write of queue register blocks; false at a doorbell to a queue that threads push (R111, R112). -/
def State.blocksWrite (s : State) (o : Nat) (data : List Byte) : State × Bool :=
  (touched 64 o data).foldl (fun a x =>
    let w := a.1.blockWrite x.1 x.2.1 x.2.2.length (BitVec.ofNat 64 (field x.2.2 0 8))
    (w.1, a.2 && !w.2)) (s, true)

/-- Write of windows: by the Keeper alone, with the partition lock clear, leaving each consistent (R232,
R233). -/
def State.windowsWrite (s : State) (r : Rq) (o : Nat) (data : List Byte) : State × Bool :=
  let ts := (touched 32 o data).map fun x => (x.1, windowMask (patchNat (s.window x.1) 32 x.2.1 x.2.2))
  if decide (r.master = 11) && !s.locked && ts.all fun x => windowConsistent x.2 then
    (ts.foldl (fun s x => s.setObj 0x3200 (x.1 + 1) x.2) s, true)
  else (s, false)

/-- Master of a request's origin. -/
def Origin.master : Origin → Nat
  | .thread th => th.bed.val
  | .host => 10

/-- Master of the consumer of a queue (Table MM-2). -/
def State.queueMaster (s : State) (q : Nat) : Nat :=
  match s.qCons q with
  | 4 => 8
  | 5 => 9
  | 6 => 13
  | 7 => 13
  | _ => 4 + s.qBed q

/-- Masters with a transaction outstanding (R241). -/
def State.busyMasters (s : State) : List Nat :=
  (s.matrix.requests.map fun r => r.master.val) ++ (s.matrix.responses.map fun r => r.origin.master)
    ++ s.remote.filterMap fun r => match r.use with
      | .request _ o => some o.master
      | .moverRead _ _ => some 9
      | .moverWrite _ _ => some 9
      | .unit q _ _ _ => some (s.queueMaster q)

/-- The register slices may be written by master m (R241). -/
def State.slicesOpen (s : State) (m : Nat) : Bool :=
  decide (s.power.dev = .config) && s.busyMasters.all fun x => decide (x = m)

/-- Write of one byte of the matrix control range; slice bytes are written apart. -/
def State.controlWrite (s : State) (o : Nat) (b : Byte) : State :=
  if o < 14 then s.setObj 0x3200 (0x42 + o) (b.toNat % 16)
  else if 0x10 ≤ o ∧ o < 0x1A then s.setObj 0x3200 (0x50 + (o - 0x10)) (b.toNat % 16)
  else if 0x20 ≤ o ∧ o < 0x32 then
    s.setObj 0x3200 0x5B (patchNat (s.obj 0x3200 0x5B) 18 (o - 0x20) [b] % 2 ^ 140)
  else s

/-- Write of the matrix control range; false where the slice bits may not be written (R241). -/
def State.controlsWrite (s : State) (r : Rq) (o : Nat) (data : List Byte) : State × Bool :=
  let slice := decide (o < 0x32) && decide (0x20 < o + data.length)
  if slice && !s.slicesOpen r.master then (s, false)
  else ((List.zip (List.range data.length) data).foldl (fun s e => s.controlWrite (o + e.1) e.2) s, true)

/-- Post an alert word (R316). -/
def State.postAlert (s : State) (p : Nat) (word : W64) : State :=
  let a := s.alerts
  let s := { s with alerts := { a with nextSeq := a.nextSeq + 1, produced := a.produced + 1 } }
  if a.ring.length < Config.alertRing then
    let e : Alert := {
      seq := a.nextSeq, epoch := s.epoch, phase := BitVec.ofNat 20 s.phase, part := ⟨p % 8, by omega⟩,
      word := word &&& 0xFFFF03FFFFFFFFFF }
    ({ s with alerts := { s.alerts with ring := a.ring ++ [e], latched := a.latched + 1 } }).msix 2
  else { s with alerts := { s.alerts with notLatched := a.notLatched + 1 } }

/-- A store to the alert post register: 64 bits, by the cyclic partition (R315). -/
def State.alertWrite (s : State) (r : Rq) (off : Nat) (data : List Byte) : State × Bool :=
  if off = 0x00150000 && data.length = 8 && !r.wide && decide (r.part = s.obj 0x6002 3) then
    (s.postAlert r.part (BitVec.ofNat 64 (leNat data)), true)
  else (s, false)

/-- Start a write-back of every dirty line (R244). -/
def State.startWriteBack (s : State) : State := { s with matrix := { s.matrix with writeBack := true } }

/-- The write of one range; false is an error response with 0x0802. -/
def State.rangeWrite (s : State) (r : Rq) (off : Nat) (data : List Byte) : State × Bool :=
  match regRange off with
  | some (0x00100000, _) => s.pageWrite r (off - 0x00100000) data
  | some (0x00110000, _) => s.blocksWrite (off - 0x00110000) data
  | some (0x00120000, _) => s.windowsWrite r (off - 0x00120000) data
  | some (0x00121000, _) => s.controlsWrite r (off - 0x00121000) data
  | some (0x00130000, _) => (if off < 0x00130004 then s.startWriteBack else s, true)
  | some (0x00150000, _) => s.alertWrite r off data
  | _ => (s, true)

/-- A write of register space: the code of an error response. -/
def State.regWrite (s : State) (r : Rq) (off : Nat) (data : List Byte) : State × Option Nat :=
  if !regOk off data.length then (s.regDenied r off 0x0801, some 0x0801)
  else
    let w := s.rangeWrite r off data
    if w.2 then (w.1, none) else (w.1.regDenied r off 0x0802, some 0x0802)

end Sys2Proof.Machine
end

