-- ==== Sys2Proof/Machine/Units.lean ====
section
/-! DEFINITION. The accesses that the units make through the matrix, piece by piece, and the target ports they
stand at (R174, R223 to R231, R235, R236, R291). -/

namespace Sys2Proof.Machine

/-! ### Ports, slots and bursts (R227, R235, R236, R291) -/

/-- The target port of an address: by region, region 0's port by offset bits [12:10] and the State Store's by
physical quarter; T9 where no window or no path leads on; T7 for another device (R90, R227, R229). -/
def State.portOf (s : State) (m addr : Nat) : TargetPort :=
  let region := bits addr 52 48
  let off := bits addr 47 0
  if !addr.testBit 60 && decide (bits addr 59 53 ≠ s.chip.toNat) then { target := 7, port := 0 }
  else match s.deciding region off with
    | none => { target := 9, port := 0 }
    | some w =>
      let t := bits (s.window w) 131 128
      if !hasPath m t then { target := 9, port := 0 }
      else {
        target := ⟨t % 10, by omega⟩
        port :=
          if t = 5 then ⟨bits off 12 10 % 8, by omega⟩
          else if t = 4 then ⟨Min.min 3 (off % 2 ^ 24 / (3 * 2 ^ 20)), by omega⟩
          else 0 }

/-- Key of a target port. -/
def portKey (p : TargetPort) : Nat := p.target.val * 8 + p.port.val

/-- The matrix's slot of the round at a cycle (R291). -/
def roundSlot (c : Nat) : Nat := c / 16 % 64

/-- Some partition is sealed. -/
def State.anySealed (s : State) : Bool := (List.range 8).any s.isSealed

/-- The sealed partition whose slot a cycle lies in (R291). -/
def State.slotOwner (s : State) (c : Nat) : Option Nat :=
  (List.range 8).find? fun p => s.isSealed p && (s.partObj p 15).testBit (roundSlot c)

/-- Beats of a piece. -/
def beats (addr len : Nat) : Nat := Max.max 1 ((addr % 64 + len + 63) / 64)

/-- A piece of n beats of partition p may be granted at cycle c: its slot is the partition's, and the piece ends within
it (R291). -/
def State.slotOk (s : State) (p c n : Nat) : Bool :=
  !s.anySealed ||
    ((match s.slotOwner c with
      | some o => decide (p = o)
      | none => !s.isSealed p) &&
     decide (c % 16 + n ≤ 16))

/-- Pieces of an access: no piece crosses a 1 KiB boundary (R236). -/
def pieces : Nat → Nat → Nat → List (Nat × Nat)
  | 0, _, _ => []
  | n + 1, addr, len =>
    if len = 0 then []
    else
      let k := Min.min len (1024 - addr % 1024)
      (addr, k) :: pieces n (addr + k) (len - k)

/-- The first cycle from now on in which a port may grant partition p a piece of n beats: now, or the start of a slot of
the round (R291). -/
def State.nextSlot (s : State) (p n : Nat) : Nat :=
  if s.slotOk p s.cycle n then s.cycle
  else (((List.range 65).map fun i => (s.cycle / 16 + 1 + i) * 16).find? fun c => s.slotOk p c n).getD s.cycle

/-- A port grants master m a piece of n beats now, and arbitrates again in the cycle after its last beat (R235, R236). -/
def State.portTaken (s : State) (p : TargetPort) (m n : Nat) : State :=
  let x := s.matrix
  { s with matrix := { x with
      lastGrant := tset x.lastGrant (portKey p) m 13
      busy := tset x.busy (portKey p) (Max.max s.cycle (tget x.busy (portKey p) 0) + n) 0 } }

/-- A unit's burst at its target ports: each piece is granted when the command that makes it is taken, in its slot of the
round (R227, R236, R291; the order against waiting requests is that of the commands, DESIGN CHOICE, log 12). -/
def State.unitBurst (s : State) (r : Rq) : List (Nat × Nat) → State
  | [] => s
  | (addr, len) :: rest =>
    let p := s.portOf r.master addr
    (if p.target = 9 || (p.target ≠ 7 && ownPort r.master (bits addr 52 48)) then s
     else (s.advance (s.nextSlot r.part (beats addr len))).portTaken p r.master (beats addr len)).unitBurst r rest

/-- The bursts of a transfer of a unit. -/
def State.unitTransfer (s : State) (r : Rq) (addr len : Nat) : State :=
  s.unitBurst r (pieces (len / 1024 + 2) addr len)

/-! ### Pieces -/

/-- The first answer that the present descriptor has for an access of another device, taken; or the access is what it
lacks an answer for: the error 0 stops the work, which is then done again once the answer has come (R256, DESIGN CHOICE,
log 145). Outside a descriptor there is none. -/
def State.takeAnswer' (s : State) (addr : W64) (len : Nat) (op : Op) : Option (State × Reply) :=
  let wr := match op with
    | .write _ => true
    | _ => false
  match s.asking with
  | none => none
  | some a =>
    match a.answers.find? fun x => decide (x.addr = addr) && decide (x.len = len) && decide (x.wr = wr) with
    | some x => some ({ s with asking := some { a with answers := a.answers.erase x } }, x.reply)
    | none => some ({ s with asking := some { a with want := a.want <|> some (addr, len, op) } }, .error 0)

/-- An access of another device by a unit whose work is no descriptor's: its answer is free (DESIGN CHOICE, log 4). -/
def State.freeAnswer (s : State) (addr : W64) (len : Nat) (op : Op) : State × Reply :=
  let f := s.fresh
  (f.1, match op with
    | .write _ =>
      (match Config.remoteWriteError f.2 addr with
       | some c => .error c
       | none => .data [])
    | _ =>
      (match (List.range len).mapM fun i => Config.remoteByte f.2 (addr + BitVec.ofNat 64 i) with
       | .ok l => .data l
       | .error c => .error c))

/-- An access of another device (R256): answered, or still to be answered; without a route 0x0A01 (R264). -/
def State.remotePiece (s : State) (r : Rq) (chip : BitVec 7) (op : Op) : State × Reply :=
  let addr := BitVec.ofNat 64 r.addr
  let known := match s.asking with
    | some a => a.answers.any fun x => decide (x.addr = addr) && decide (x.len = r.len)
    | none => false
  if !known && (s.routePort chip).isNone then (s.noRoute r.who chip r.addr, .error 0x0A01)
  else (s.takeAnswer' addr r.len op).getD (s.freeAnswer addr r.len op)

/-- Read of a piece by a unit. -/
def State.readPiece (s : State) (r : Rq) : State × Except Nat (List Byte) :=
  match s.place r with
  | (s, .error d) => (s.denied r d, .error d.1)
  | (s, .ok (.mem k)) => s.fetchKey r k
  | (s, .ok (.reg o)) => s.regRead r o
  | (s, .ok (.remote chip)) =>
    let a := s.remotePiece r chip .read
    (a.1, match a.2 with
      | .data l => .ok (slice l 0 r.len)
      | .error c => .error c.toNat)

/-- Write of a piece by a unit. -/
def State.writePiece (s : State) (r : Rq) (data : List Byte) : State × Option Nat :=
  match s.place r with
  | (s, .error d) => (s.denied r d, some d.1)
  | (s, .ok (.mem k)) => (s.storeKey r k data, none)
  | (s, .ok (.reg o)) => s.regWrite r o data
  | (s, .ok (.remote chip)) =>
    let a := s.remotePiece r chip (.write data)
    (a.1, match a.2 with
      | .data _ => none
      | .error c => some c.toNat)

/-- Bytes from an address to the end of its 64-byte line, at most len. -/
def pieceLen (addr len : Nat) : Nat := Min.min len (64 - addr % 64)

/-- Read any length for a request like r, piece by piece (one beat each, DESIGN CHOICE, log 12); stops at the first error
response. -/
def State.readPieces (s : State) (r : Rq) (acc : List Byte) : Nat → Nat → Nat → State × Except Nat (List Byte)
  | 0, _, _ => (s, .ok acc)
  | fuel + 1, addr, len =>
    if len = 0 then (s, .ok acc)
    else
      let n := pieceLen addr len
      let a := s.readPiece { r with addr, len := n }
      match a.2 with
      | .error c => (a.1, .error c)
      | .ok l => a.1.readPieces r (acc ++ l) fuel (addr + n) (len - n)

/-- A unit's request: master m on behalf of `who`; address and length are those of its pieces. -/
def unitRq (m : Nat) (who : BitVec 8) (wr : Bool) : Rq :=
  { master := m, who, id := (Config.unitId m).toNat, addr := 0, len := 0, rd := !wr, wr }

/-- A unit's read: master m on behalf of `who`. -/
def State.mread (s : State) (m : Nat) (who : BitVec 8) (addr len : Nat) : State × Except Nat (List Byte) :=
  (s.unitTransfer (unitRq m who false) addr len).readPieces (unitRq m who false) [] (len / 64 + 2) addr len

/-- Write any length for a request like r, piece by piece; stops at the first error response: the code, and the
bytes written. -/
def State.writePieces (s : State) (r : Rq) (n0 : Nat) : Nat → Nat → List Byte → State × Option Nat × Nat
  | 0, _, _ => (s, none, n0)
  | fuel + 1, addr, data =>
    if data.isEmpty then (s, none, n0)
    else
      let n := pieceLen addr data.length
      let a := s.writePiece { r with addr, len := n } (data.take n)
      match a.2 with
      | some c => (a.1, some c, n0)
      | none => a.1.writePieces r (n0 + n) fuel (addr + n) (data.drop n)

/-- A unit's write: the code of an error response, and the bytes written before it. -/
def State.mwrite (s : State) (m : Nat) (who : BitVec 8) (addr : Nat) (data : List Byte) :
    State × Option Nat × Nat :=
  (s.unitTransfer (unitRq m who true) addr data.length).writePieces (unitRq m who true) 0 (data.length / 64 + 2) addr data

end Sys2Proof.Machine
end

