-- ==== Sys2Proof/Machine/Operands.lean ====
section
/-! DEFINITION. Operand forms: the fields of descriptors (Tables QD-5 to QD-10), their reserved bits, and the
format codes of elements. -/

namespace Sys2Proof.Machine

/-- A descriptor as its consumer reads it at dispatch. -/
structure Desc where
  q : Nat
  /-- Queue index of its first entry (`SEQ`). -/
  index : W32
  /-- It occupies two entries (R107). -/
  two : Bool
  bytes : List Byte
  deriving DecidableEq, Repr

/-- An unsigned field of a descriptor. -/
def Desc.f (d : Desc) (off len : Nat) : Nat := field d.bytes off len
/-- A signed field of a descriptor. -/
def Desc.si (d : Desc) (off len : Nat) : Int := signedOf (8 * len) (d.f off len)
/-- `OPC`. -/
def Desc.opc (d : Desc) : Nat := d.f 0 1
/-- `FLAGS`. -/
def Desc.flags (d : Desc) : Nat := d.f 1 1
/-- `EXT`. -/
def Desc.ext (d : Desc) : Bool := d.flags.testBit 0
/-- `STEP_END`. -/
def Desc.stepEnd (d : Desc) : Bool := d.flags.testBit 1
/-- `TAG`. -/
def Desc.tag (d : Desc) : Nat := d.f 4 2
/-- `WAITC`. -/
def Desc.waitc (d : Desc) : Nat := d.f 6 2
/-- `WAITV`. -/
def Desc.waitv (d : Desc) : W32 := BitVec.ofNat 32 (d.f 8 4)
/-- `DONEC`. -/
def Desc.donec (d : Desc) : Nat := d.f 12 2

/-- Consumers that accept an opcode (Table QD-7), by `CONS` code. -/
def consumersOf (opc : Nat) : List Nat :=
  match opc with
  | 0x10 => [1, 2]
  | 0x20 => [3]
  | 0x21 => [3]
  | 0x22 => [3]
  | 0x30 => [4]
  | 0x31 => [4]
  | 0x32 => [4]
  | 0x33 => [4]
  | 0x34 => [4]
  | 0x40 => [4, 5]
  | 0x41 => [4, 5]
  | 0x42 => [3]
  | 0x43 => [3]
  | 0x50 => [3]
  | 0x60 => [7]
  | 0x70 => [1, 2, 3, 4, 5, 7]
  | 0x71 => [1, 2, 3, 4, 5, 7]
  | 0x7F => [1, 2, 3, 4, 5, 7]
  | 0x80 => [6]
  | _ => []

/-- Whether an opcode's length is 128 bytes (Table QD-7). -/
def longOpcode (opc : Nat) : Bool := opc = 0x10 || opc = 0x20

/-- The bits that the body's table lists: first byte, last byte, mask (Tables QD-8 to QD-10, HP-4). -/
def bodyMask (opc : Nat) (d : Desc) : List (Nat × Nat × Nat) :=
  match opc with
  | 0x10 => [(16, 27, 0xFF), (28, 28, 0x03), (29, 29, 0x0F), (30, 30, 0x07), (31, 59, 0xFF), (64, 105, 0xFF)]
  | 0x20 => [(16, 20, 0xFF), (21, 21, 0x03), (24, 26, 0xFF), (32, 127, 0xFF)]
  | 0x21 => [(16, 19, 0xFF), (20, 20, 0x3F), (21, 21, 0xFF), (22, 22, 0x87), (23, 24, 0xFF), (28, 63, 0xFF)]
  | 0x22 => [(16, 22, 0xFF), (24, 63, 0xFF)]
  | 0x30 => [(16, 17, 0xFF), (18, 18, 0x03), (19, 19, 0x80)] ++
      (if (d.f 19 1).testBit 7 then [(20, 22, 0xFF), (24, 25, 0xFF), (32, 37, 0xFF), (40, 45, 0xFF)] else [])
  | 0x31 => [(16, 17, 0xFF), (18, 18, 0x03), (19, 19, 0x80)]
  | 0x32 => [(16, 16, 0xFF), (24, 47, 0xFF)]
  | 0x33 => [(16, 17, 0xFF), (18, 18, 0x03), (20, 22, 0xFF), (23, 23, 0x01), (24, 31, 0xFF)]
  | 0x34 => [(16, 29, 0xFF), (32, 38, 0xFF)]
  | 0x40 => [(16, 47, 0xFF)]
  | 0x41 => [(16, 35, 0xFF)]
  | 0x42 => [(16, 31, 0xFF)]
  | 0x43 => [(16, 31, 0xFF)]
  | 0x50 => [(16, 16, 0xFF), (24, 35, 0xFF)]
  | 0x60 => [(16, 21, 0xFF), (24, 39, 0xFF)]
  | 0x71 => [(16, 16, 0xFF), (17, 17, 0x03), (20, 23, 0xFF)]
  | 0x80 => [(16, 31, 0xFF)]
  | _ => []

/-- The bits of the header that are not reserved for an opcode (Table QD-5, Table HP-4). -/
def headerMask (opc : Nat) : List (Nat × Nat × Nat) :=
  if opc = 0x80 then [(0, 0, 0xFF), (1, 1, 0x04), (2, 2, 0x07), (12, 12, 0xFF), (13, 13, 0x83)]
  else [(0, 0, 0xFF), (1, 1, 0x07), (2, 2, 0x07), (3, 3, if opc = 0x10 then 0xFF else 0), (4, 6, 0xFF),
    (7, 7, 0x83), (8, 12, 0xFF), (13, 13, 0x83)]

/-- The first byte with a reserved bit set (R122). -/
def Desc.reserved (d : Desc) : Option Nat :=
  let ok := headerMask d.opc ++ bodyMask d.opc d
  (List.range (if d.two then 128 else 64)).find? fun i =>
    let m := ((ok.find? fun e => decide (e.1 ≤ i) && decide (i ≤ e.2.1)).map (·.2.2)).getD 0
    decide (d.f i 1 &&& (0xFF - m) ≠ 0)

/-! ### Addresses of operands -/

/-- A stream's operand address lies in a region of this SX4: its region and offset; none when it names
another device or a reserved region (Table TD-3, R90). -/
def State.localPlace (s : State) (addr : Nat) : Option (Nat × Nat) :=
  if addr ≥ 2 ^ 61 then none
  else if addr.testBit 60 || decide (bits addr 59 53 = s.chip.toNat) then some (bits addr 52 48, bits addr 47 0)
  else none

/-- An address field in region 1 of this SX4. -/
def State.inStore (s : State) (addr : Nat) : Bool :=
  match s.localPlace addr with
  | some (r, _) => decide (r = 1)
  | none => false

/-- The region that an address names, on whatever device (Table TD-3). -/
def regionOf (addr : Nat) : Nat := bits addr 52 48

/-! ### Element formats (Table EL-1) -/

/-- Size z of a format code (Table EL-1). -/
def formatSize (code : Nat) : Nat :=
  match code with
  | 1 => 1
  | 2 => 2
  | 3 => 4
  | 4 => 4
  | 5 => 6
  | 6 => 6
  | _ => 0

/-- Whether a format's lane is a float. -/
def formatFloat (code : Nat) : Bool := code = 4 || code = 6

/-! ### Beds and domains of a MATMUL (Table QD-5, R148) -/

/-- Beds of the mask, ascending. -/
def Desc.beds (d : Desc) : List Nat := setList 4 (d.f 3 1)
/-- Split code. -/
def Desc.split (d : Desc) : Nat := bits (d.f 3 1) 5 4
/-- Arrays used, in letter order. -/
def Desc.arrays (d : Desc) : List Nat := setList 4 (d.f 29 1)
/-- Raw mode. -/
def Desc.raw (d : Desc) : Bool := (d.f 30 1).testBit 1
/-- Combine mode. -/
def Desc.combine (d : Desc) : Bool := (d.f 30 1).testBit 2

/-- The activation lies in bed b's own Bed Store, so the furrow reads it directly (R134). -/
def State.ownActivation (s : State) (d : Desc) (b : Nat) : Bool :=
  match s.localPlace (d.f 32 8) with
  | some (r, _) => decide (r = 4 + b)
  | none => false

/-- Bed Store halves that hold a span of bed b. -/
def halfDomains (b off len : Nat) : List Nat :=
  (if off < 2 ^ 21 then [9 + 9 * b] else []) ++ (if off + len > 2 ^ 21 then [10 + 9 * b] else [])

/-- Domains that a MATMUL uses: accumulators, arrays with their banks, the Bed Store halves of its activation or
staging area, and the combiner's Element Engine unless it is raw (R162, R195, Table PW-1). -/
def State.matmulDomains (s : State) (d : Desc) (bed : Nat) : List Nat :=
  (if d.raw then [] else [3 + 9 * bed]) ++ d.beds.flatMap fun b =>
    (4 + 9 * b) :: (d.arrays.map fun x => 5 + 9 * b + x) ++
      (if s.ownActivation d b then
        halfDomains b (bits (d.f 32 8) 47 0) (d.f 16 4 * d.f 20 4 * (if (d.f 28 1).testBit 0 then 1 else 2))
      else halfDomains b (d.f 80 4) (d.f 84 4))

end Sys2Proof.Machine
end

