-- ==== Sys2Proof/Machine/Queues.lean ====
section
/-! DEFINITION. Queues: doorbells, held mode, release, configuration, dispatch, the checks of R122, the end
of a descriptor, and the descriptors FENCE, SIGNAL and NOP (R106 to R127). -/

namespace Sys2Proof.Machine

/-- The Keeper serves all of KPP: not before its image runs, in a reset or in Rest (R374, R386, Table PW-3). -/
def State.keeperServes (s : State) : Bool :=
  decide (s.power.dev ∈ [DevState.config, .ready, .run, .fault])

/-- Keep the abort code of an object write that has a row of its own (DESIGN CHOICE, log 7); while the Keeper serves no request
there is no such write. -/
def State.answered (s : State) (p : State × Nat) : State :=
  if s.keeperServes then { p.1 with kpp := { p.1.kpp with result := BitVec.ofNat 8 p.2 } } else s

/-- A write to an object that the partition lock guards (R307): abort 0x07 while it is set. -/
def State.guarded (s : State) (f : State → State × Nat) : State × Nat := if s.locked then (s, 0x07) else f s

/-! ### Doorbells and held mode -/

/-- PART byte of what a queue's descriptors do: the queue's partition (R122, Table QD-6; DEDUCED, log 15). -/
def State.qWho (s : State) (q : Nat) : BitVec 8 := partByte (s.qPart q)

/-- Region 3 address of a queue's register block (R113). -/
def blockAddr (q : Nat) : Nat := localAddr 3 (0x00110000 + 0x40 * q)

/-- A host write of the register block through the queue's BAR2 page: by master M10 with the queue's partition, past
the windows (R341; DEDUCED, log 114). -/
def State.queuePageWrite (s : State) (q offset width : Nat) (value : W64) : State :=
  let r := s.blockWrite q offset width value
  if r.2 then
    r.1.denied { unitRq 10 (s.qWho q) true with addr := blockAddr q + offset, len := width } (0x0802, noWindow)
  else r.1

/-- Set or clear held mode: object 0x3103 (R117). -/
def State.heldWrite (s : State) (q v : Nat) : State := (s.setObj 0x3103 (q + 1) v).followTail q

/-- HELD_MODE_SET: `REL` freezes (R117). -/
def execHeldModeSet (q : QueueId) (s : State) : Host.Outcome State Fault Refusal :=
  done (s.answered (s.heldWrite q 1, 0))

/-- HELD_MODE_CLEAR: `REL` becomes `TAIL` (R117). -/
def execHeldModeClear (q : QueueId) (s : State) : Host.Outcome State Fault Refusal :=
  done (s.answered (s.heldWrite q 0, 0))

/-! ### Descriptors in the ring -/

/-- Key of entry index i of queue q; rings are read and records written by the queue logic (DEDUCED, log 13). -/
def State.entryKey (s : State) (q i : Nat) : Nat := s.qEntry q i % 2 ^ 53

/-- A ring access of the queue logic meets memory that is being scrubbed: an error response with 0x0B02 (R288). -/
def State.ringDenied (s : State) (q key len : Nat) (wr : Bool) : Option Rq :=
  if s.scrubbing key || s.scrubbing (key + len - 1) then
    some { unitRq (s.queueMaster q) (s.qWho q) wr with addr := 2 ^ 60 + key, len }
  else none

/-- A write of a ring by the queue logic; one that a scrub turns away has its fault and changes nothing (R288; DESIGN
CHOICE, log 13). -/
def State.queueRingWrite (s : State) (q key : Nat) (l : List Byte) : State :=
  match s.ringDenied q key l.length true with
  | some r => s.denied r (0x0B02, noWindow)
  | none => s.wrBytes key l

/-- Entries of the descriptor at index i: the pushing instruction's, or `EXT` (R107). -/
def State.entryCount (s : State) (q : Nat) (i : W32) : Nat :=
  if s.qDoorbell q then (if (s.rd8 (s.entryKey q i.toNat + 1)).toNat.testBit 0 then 2 else 1)
  else if i ∈ (s.queue q).longs then 2 else 1

/-- The descriptor at index i. -/
def State.readDesc (s : State) (q : Nat) (i : W32) : Desc :=
  let two := decide (s.entryCount q i = 2)
  let b := s.rdBytes (s.entryKey q i.toNat) 64
  { q, index := i, two,
    bytes := if two then b ++ s.rdBytes (s.entryKey q (i + 1).toNat) 64 else b }

/-- Entries between two indices, in modular order. -/
def gap (a b : W32) : Nat := (b - a).toNat

/-- `REL` after a release of up to n descriptors, each whole below what `TAIL` was before this cycle (R36,
R116). -/
def State.releaseTo (s : State) (q : Nat) (rel : W32) : Nat → W32
  | 0 => rel
  | n + 1 =>
    let c := s.entryCount q rel
    let held := gap rel ((s.queue q).tailAt s.cycle)
    if c ≤ held && held < 2 ^ 31 && held ≠ 0 then
      s.releaseTo q (rel + BitVec.ofNat 32 c) n
    else rel

/-- The first index from i on at which a descriptor starts that is not wholly below `REL`; from `DISP` it is the oldest
held descriptor, which starts below `REL` where a doorbell left `TAIL` between the two entries of one (R116). -/
def State.oldestHeld (s : State) (q : Nat) (i : W32) : Nat → W32
  | 0 => i
  | n + 1 =>
    let c := s.entryCount q i
    if c ≤ gap i (s.queue q).rel then s.oldestHeld q (i + BitVec.ofNat 32 c) n else i

/-- `REL` after a release of up to n descriptors of a queue: it stays where not even the oldest is released (R116). -/
def State.releasedTo (s : State) (q n : Nat) : W32 :=
  let k := s.queue q
  let first := s.oldestHeld q k.disp (gap k.disp k.rel)
  let past := s.releaseTo q first n
  if past = first then k.rel else past

/-- RELEASE or PUBLISH fired on a queue: no effect outside held mode (R36, R116). -/
def State.release (s : State) (q arg : Nat) : State :=
  if s.qHeld q then s.setQueue q { s.queue q with rel := s.releasedTo q arg } else s

/-! ### Dispatch (R114, R115) -/

/-- The context of a mover or of Ingest/Publish that serves a queue: a sealed partition's own, or the one the others
share (R292). -/
def State.unitContext (s : State) (q : Nat) : Nat :=
  if decide (4 ≤ s.qCons q) && s.isSealed (s.qPart q) then s.qPart q + 1 else 0

/-- Whether two queues have the same consumer; a mover serves a sealed partition with a context of its own (R292); each
host ingest and Publish queue runs its own descriptor (DEDUCED, log 14). -/
def State.sameUnit (s : State) (a b : Nat) : Bool :=
  let c (q : Nat) := if s.qCons q = 2 then 1 else s.qCons q
  decide (a = b) || (decide (c a = c b) && decide (s.qBed a = s.qBed b) && decide (c a < 6) && decide (c a ≠ 0) &&
    decide (s.unitContext a = s.unitContext b))

/-- Domain of a queue's consumer (Table PW-1). -/
def State.unitDomain (s : State) (q : Nat) : Nat :=
  match s.qCons q with
  | 1 => 2 + 9 * s.qBed q
  | 2 => 2 + 9 * s.qBed q
  | 3 => 3 + 9 * s.qBed q
  | _ => 1

/-- Whether a bed's Imposers are taken: claimed by a MATMUL of another queue than q, or, for a split that wants
them, running anything (R150). -/
def State.imposerTaken (s : State) (q b : Nat) (any : Bool) : Bool :=
  (List.range 32).any fun x => decide (x ≠ q) && (match (s.queue x).run with
    | some r => decide (b ∈ r.beds) || (any && decide (s.qCons x = 1 ∨ s.qCons x = 2) && decide (s.qBed x = b))
    | none => false)

/-- What an Imposer's descriptor waits for beside R114: beds of a split to claim, domains that are on (R150,
R162). -/
def State.imposerReady (s : State) (q : Nat) (d : Desc) : Bool :=
  !s.imposerTaken q (s.qBed q) false &&
    (decide (d.opc ≠ 0x10) ||
      ((decide (d.split = 0) || d.beds.all fun b => !s.imposerTaken q b true) &&
        (s.matmulDomains d (s.qBed q)).all s.isOn))

/-- Whether queue q's front descriptor meets the conditions of R114, and may be dispatched in the present
device state (R368). -/
def State.ready (s : State) (q : Nat) : Bool :=
  let k := s.queue q
  let d := s.readDesc q k.disp
  let w := d.waitc
  decide (s.power.dev = .run) && decide (s.power.rest = .none) && decide (s.qCons q ≠ 0) && decide (s.qRing q ≠ 0)
    && s.isOn (s.unitDomain q)
    && ((List.range 32).all fun x => !(s.sameUnit q x) || (s.queue x).run.isNone)
    && decide (gap k.disp k.rel < 2 ^ 31) && decide (s.entryCount q k.disp ≤ gap k.disp k.rel)
    && (!w.testBit 15 || (d.opc = 0x80 && s.qCons q = 6) || !s.selOk (s.qPart q) w || reached (s.counter (selCounter w)) d.waitv)
    && (!decide (s.qCons q = 1 ∨ s.qCons q = 2) || s.imposerReady q d)

/-- Number of a consumer and its context, for its turn. -/
def State.unitNum (s : State) (q : Nat) : Nat := s.qCons q * 4 + s.qBed q + 32 * s.unitContext q

/-- Another split MATMUL that could claim one of the beds of queue q's split now, with a lower combiner bed
(R150). -/
def State.lowerSplit (s : State) (q : Nat) : Bool :=
  let d (x : Nat) := s.readDesc x (s.queue x).disp
  decide ((d q).opc = 0x10) && decide ((d q).split ≠ 0) && (List.range 32).any fun x =>
    decide (s.qCons x = 1 ∨ s.qCons x = 2) && decide (s.qBed x < s.qBed q) && decide ((d x).opc = 0x10) &&
      decide ((d x).split ≠ 0) && ((d x).beds.any fun b => decide (b ∈ (d q).beds)) && s.ready x

/-- Whether it is queue q's turn at its consumer: an urgent queue before a normal one, else round robin in
ascending queue order (R115); of two splits that want one bed, the lower combiner's (R150). -/
def State.turn (s : State) (q : Nat) : Bool :=
  if decide (s.qCons q = 1 ∨ s.qCons q = 2) && s.lowerSplit q then false
  else if s.qCons q = 1 then
    (List.range 32).all fun x => !(decide (s.qCons x = 2) && decide (s.qBed x = s.qBed q) && s.ready x)
  else
    let last := tget s.lastServed (s.unitNum q) 31
    let order := (List.range 32).map fun i => (last + 1 + i) % 32
    decide ((order.find? fun x => decide (s.unitNum x = s.unitNum q) && s.ready x) = some q)

/-- The descriptor that queue q may dispatch now. -/
def State.front (s : State) (q : Nat) : Option Desc :=
  if s.ready q && s.turn q then some (s.readDesc q (s.queue q).disp) else none

/-- Trace source of a queue's consumer (Table TF-1). -/
def State.unitSource (s : State) (q : Nat) : Nat :=
  match s.qCons q with
  | 1 => 4 + s.qBed q
  | 2 => 4 + s.qBed q
  | 3 => 8 + s.qBed q
  | 4 => 12
  | 5 => 13
  | _ => 17

/-- Dispatch: `DISP` advances and the descriptor runs (R114). -/
def State.startRun (s : State) (q : Nat) (d : Desc) : State :=
  let k := s.queue q
  let n : W32 := if d.two then 2 else 1
  let run : Run := {
    index := d.index, two := d.two, opc := BitVec.ofNat 8 d.opc, flags := BitVec.ofNat 8 d.flags,
    tag := BitVec.ofNat 16 d.tag, part := BitVec.ofNat 8 (s.qPart q), donec := BitVec.ofNat 16 d.donec,
    doneOk := s.selOk (s.qPart q) d.donec }
  let s := s.setQueue q { k with disp := k.disp + n, run := some run }
  let s := { s with lastServed := tset s.lastServed (s.unitNum q) q 31 }
  s.emit (s.unitSource q) (decide (d.tag ≠ 0)) (s.qWho q) 0x10
    (q + d.opc * 2 ^ 8 + d.tag * 2 ^ 16 + d.index.toNat * 2 ^ 32)

/-- Change the running descriptor of a queue. -/
def State.mapRun (s : State) (q : Nat) (f : Run → Run) : State :=
  s.setQueue q { s.queue q with run := (s.queue q).run.map f }

/-- The work of a queue's descriptor is over with this ending. -/
def State.finish (s : State) (q : Nat) (status code detail : Nat) : State :=
  s.mapRun q fun r => { r with phase := .finished, ending := {
    status := BitVec.ofNat 8 status, code := BitVec.ofNat 16 code, detail := BitVec.ofNat 32 detail } }

/-- It stops on a fault code (Table QD-6). -/
def State.finishFault (s : State) (q code detail : Nat) : State := s.finish q 2 code detail

/-- A refusal at dispatch with 0x0402 or 0x0403: fault and ending (R122, R127). -/
def State.refuse (s : State) (q : Nat) (d : Desc) (code off : Nat) : State :=
  (s.raise code (s.qWho q) 0 (s.qEntry q d.index.toNat) (q + d.index.toNat * 2 ^ 32) off).finishFault q code 0

/-- A refused byte of a descriptor: its offset. -/
abbrev Bad := Option Nat

/-- Bad at an offset unless the condition holds. -/
def need (c : Bool) (off : Nat) : Bad := if c then none else some off

/-- The first refusal of a list of checks. -/
def firstBad (l : List Bad) : Bad := l.foldr (fun a b => a <|> b) none

/-- Whether `STEP_END` may stand on an opcode (R120). -/
def stepEndOpcode (opc : Nat) : Bool := opc ∈ [0x10, 0x20, 0x21, 0x22]

/-- Addresses of a descriptor, which may name the State Store and so need a batch tag (R120, Tables QD-8 to QD-10). -/
def storeOperands (d : Desc) : List Nat :=
  match d.opc with
  | 0x10 => [d.f 32 8, d.f 40 8, d.f 48 8, d.f 64 8, d.f 72 8, d.f 96 8]
  | 0x20 => [d.f 32 8, d.f 40 8, d.f 48 8, d.f 56 8, d.f 64 8, d.f 72 8, d.f 80 8, d.f 88 8]
  | 0x21 => [d.f 32 8, d.f 40 8, d.f 48 8]
  | 0x22 => [d.f 24 8, d.f 32 8, d.f 40 8, d.f 48 8, d.f 56 8]
  | 0x32 => [d.f 24 8]
  | 0x33 => [d.f 24 8]
  | 0x34 => [d.f 16 8]
  | 0x40 => [d.f 16 8, d.f 24 8]
  | 0x41 => [d.f 16 8]
  | 0x42 => [d.f 16 8]
  | 0x43 => [d.f 24 8]
  | 0x50 => [d.f 24 8]
  | 0x60 => [d.f 24 8, d.f 32 8]
  | _ => []

/-- The checks of R122 that all opcodes share, then the opcode's own field ranges: the code and the offset of
the first failing byte. -/
def State.headerCheck (s : State) (q : Nat) (d : Desc) (ranges : Bad) : Option (Nat × Nat) :=
  let p := s.qPart q
  if s.qDoorbell q && decide (d.f 2 1 % 8 ≠ p) then some (0x0403, 2)
  else
    (firstBad [
      need (decide (s.qCons q ∈ consumersOf d.opc)) 0,
      need (decide (d.ext = longOpcode d.opc) && decide (d.ext = d.two)) 1,
      d.reserved,
      need (d.opc = 0x80 || !d.waitc.testBit 15 || s.selOk p d.waitc) 6,
      need (!d.donec.testBit 15 || s.selOk p d.donec) 12,
      need (!d.stepEnd || d.opc = 0x80 || stepEndOpcode d.opc) 1,
      need (d.opc = 0x80 || decide (d.tag ≠ 0) ||
        !(d.stepEnd || (storeOperands d).any fun a => s.inStore a)) 4,
      ranges]).map fun o => (0x0402, o)

/-! ### Work that asks another device (R256, DESIGN CHOICE, log 145) -/

/-- Queue q's descriptor asks another device: the request goes out, and the descriptor waits for its response, with what
it claimed held; the answers it has stay with it. -/
def State.askRemote (s : State) (q : Nat) (d : Desc) (l : List RemoteAnswer) (claims : Option Run) (a : W64) (len : Nat)
    (op : Op) : State :=
  let p : Part := ⟨s.qPart q % 8, by omega⟩
  let wr := match op with
    | .write _ => true
    | _ => false
  let flits := if wr then 1 else (16 + len + 127) / 128
  let mk (t : BitVec 16) := s.packetOf (BitVec.ofNat 7 (bits a.toNat 59 53)) p
    (s.obj 0x3200 (0x42 + s.queueMaster q)) t a len op
  match s.sendRemote p a mk (.unit ⟨q % 32, by omega⟩ a len wr) flits with
  | (s, true) => s.mapRun q fun r =>
      let c := claims.getD r
      { r with
        phase := .waiting, asks := true, answers := l, rest := d.bytes, remote := 1
        slots := c.slots, beds := c.beds, uses := c.uses, held := c.held }
  | (s, false) => s.finishFault q 0x0A01 0

/-- The events of the work that queue q's descriptor has done, before the event of its end (R396, R397). -/
def State.emitMarks (s : State) (q : Nat) : State :=
  match (s.queue q).run with
  | none => s
  | some r =>
    let ev (s : State) (m : Mark) : State := match m with
      | .tile i => s.emit (s.unitSource q) (decide (r.tag ≠ 0)) (s.qWho q) 0x12 (i % 2 ^ 32)
      | .row n off => s.emit (s.unitSource q) true (s.qWho q) 0x13 (r.tag.toNat + n % 128 * 2 ^ 16 + off * 2 ^ 32)
    r.marks.foldl ev (if r.marks.isEmpty then s else s.mapRun q fun r => { r with marks := [] })

/-- Do the work of queue q's descriptor with the answers of other devices that it has. Where it lacks one, what it did
counts for nothing: it asks, and does its work again from the start once it is answered. -/
def State.withAnswers (s : State) (q : Nat) (d : Desc) (l : List RemoteAnswer) (work : State → Desc → State) : State :=
  let t := work { s with asking := some { queue := ⟨q % 32, by omega⟩, answers := l } } d
  match t.asking.bind (·.want) with
  | none => { t with asking := none }.emitMarks q
  | some (a, len, op) => s.askRemote q d l (t.queue q).run a len op

/-- The descriptor of a queue whose question another device has answered, and its answers. -/
def State.answeredRun (s : State) (q : Nat) : Option (Desc × List RemoteAnswer) :=
  match (s.queue q).run with
  | some r =>
    if r.phase = .waiting && r.asks && r.remote = 0 then
      some ({ q, index := r.index, two := r.two, bytes := r.rest }, r.answers) else none
  | none => none

/-- The run of a descriptor as at the start of its work. -/
def Run.again (r : Run) : Run := { r with phase := .finished, asks := false, rest := [], remote := 0 }

/-- Dispatch and run the front descriptor of a queue if it is one of a command's opcodes: the shared checks,
the field ranges, then the work. A descriptor that waited for another device goes on instead; one whose ring entry is
being scrubbed stays in its queue (R288; DESIGN CHOICE, log 13). -/
def State.serve (s : State) (q : Nat) (mine : Desc → Bool) (ranges : State → Desc → Bad)
    (work : State → Desc → State) : State :=
  match s.answeredRun q with
  | some (d, l) => if mine d then (s.mapRun q Run.again).withAnswers q d l work else s
  | none =>
    match s.front q with
    | none => s
    | some d =>
      if !mine d then s
      else match s.ringDenied q (s.entryKey q d.index.toNat) 64 false with
      | some r => s.denied r (0x0B02, noWindow)
      | none =>
        let t := s.startRun q d
        match t.headerCheck q d (ranges t d) with
        | some (c, o) => t.refuse q d c o
        | none => t.withAnswers q d [] work

/-! ### The end of a descriptor (R123, R124) -/

/-- The rows' slots of a partition's batch. -/
def State.batchSlots (s : State) (p : Nat) (tag : BitVec 16) : List Nat :=
  s.streams.batches.flatMap fun b =>
    if b.part.val = p ∧ b.tag = tag then b.rows.filterMap fun r => r.map (·.2) else []

/-- Set `DONE` of a slot, and keep that it was set in this cycle (R11). -/
def State.doneSlot (s : State) (p i : Nat) : State :=
  let h := s.header p i
  let now := if s.streams.doneCycle = s.cycle then s.streams.doneNow else []
  let s := s.setHeader p i { h with step := true }
  { s with streams := { s.streams with
      doneCycle := s.cycle, doneNow := if h.step then now else (p, i) :: now } }

/-- Set `DONE` in every slot bound under a batch tag (R62). -/
def State.setDone (s : State) (p : Nat) (tag : BitVec 16) : State :=
  (s.batchSlots p tag).foldl (fun s i =>
    let h := s.header p i
    if h.bound && decide (h.batch = tag.toNat) then s.doneSlot p i else s) s

/-- Write summaries into a context's m-registers; discarded if it is FREE or FAULTED (R85). -/
def State.putSummaries (s : State) (th first : Nat) (vals : List W64) : State :=
  let c := s.context th
  if c.state = .free || c.state = .faulted then s
  else s.setContext th { c with
    mregs := (List.zip (List.range vals.length) vals).foldl (fun m e => tset m ((first + e.1) % 8) e.2 0) c.mregs }

/-- The completion record (Table QD-6). -/
def completionRecord (s : State) (q : Nat) (r : Run) : List Byte :=
  natLe r.index.toNat 4 ++ [r.opc, r.ending.status] ++ natLe r.ending.code.toNat 2 ++ natLe r.tag.toNat 2
    ++ [BitVec.ofNat 8 q, partByte (s.qPart q)] ++ natLe r.ending.detail.toNat 4

/-- End a descriptor whose work is over (R62, R123, R204). -/
def State.endRun (s : State) (q : Nat) (r : Run) : State :=
  let s := if r.flags.toNat.testBit 1 && r.ending.status = 0 && stepEndOpcode r.opc.toNat
    then s.setDone r.part.toNat r.tag else s
  let s := match r.summaries with
    | some (th, first, vals) => s.putSummaries th first vals
    | none => s
  let s := match r.table with
    | some (i, img) => { s with tables := tset s.tables i img [] }
    | none => s
  let s := if s.qCompletion q = 0 then s
    else s.queueRingWrite q ((s.qCompletion q + 16 * (r.index.toNat % s.qDepth q)) % 2 ^ 53) (completionRecord s q r)
  let k := s.queue q
  let s := s.setQueue q { k with
    head := k.head + (if r.two then 2 else 1), run := none, longs := k.longs.filter (· ≠ r.index) }
  let s := if r.donec.toNat.testBit 15 && r.doneOk then s.addCounter (selCounter r.donec.toNat) 1 else s
  let s := s.emit (s.unitSource q) (decide (r.tag ≠ 0)) (s.qWho q) 0x11
    (r.ending.status.toNat + r.ending.code.toNat * 2 ^ 16 + r.index.toNat * 2 ^ 32)
  if r.flags.toNat.testBit 2 then s.msix (32 + q) else s

/-- DESCRIPTOR_END: the queue's descriptor ends if its work is over. A front descriptor whose opcode no row
of the table has is dispatched, refused and ended here (R122, R123). -/
def execDescriptorEnd (q : QueueId) (s : State) : Host.Outcome State Fault Refusal :=
  let t := match (s.queue q).run with
    | some _ => s
    | none => s.serve q (fun d => (consumersOf d.opc).isEmpty) (fun _ _ => none)
        (fun t _ => t.finish q 0 0 0)
  done (match (t.queue q).run with
    | some r => if r.phase = .finished then t.endRun q r else t
    | none => t)

/-! ### FENCE, SIGNAL, NOP (R126) -/

/-- FENCE: dispatched only when every earlier descriptor of its queue has ended; it ends at once. -/
def execFence (q : QueueId) (s : State) : Host.Outcome State Fault Refusal :=
  done (if (s.queue q).head = (s.queue q).disp then
    s.serve q (fun d => d.opc = 0x70) (fun _ _ => none) (fun t _ => t.finish q 0 0 0)
  else s)

/-- SIGNAL: `ADD` is added to the counter of `SEL` in the cycle of dispatch. -/
def execSignal (q : QueueId) (s : State) : Host.Outcome State Fault Refusal :=
  done (s.serve q (fun d => d.opc = 0x71)
    (fun t d => need (t.selOk (t.qPart q) (d.f 16 2)) 16)
    (fun t d => (t.addCounter (selCounter (d.f 16 2)) (BitVec.ofNat 32 (d.f 20 4))).finish q 0 0 0))

/-- NOP: ends at once. -/
def execNop (q : QueueId) (s : State) : Host.Outcome State Fault Refusal :=
  done (s.serve q (fun d => d.opc = 0x7F) (fun _ _ => none) (fun t _ => t.finish q 0 0 0))

/-! ### Configuration (R108, R109, R124) -/

/-- Whether a ring base obeys the placement of R106: alignment, this SX4, region 0, 4 to 7 or 20 to 23. -/
def State.ringOk (s : State) (v align : Nat) : Bool :=
  v % align = 0 && (match s.localPlace v with
    | some (r, _) => decide (r = 0) || (decide (4 ≤ r) && decide (r ≤ 7)) || (decide (20 ≤ r) && decide (r ≤ 23))
    | none => false)

/-- A queue has an entry that has not completed, or is in held mode (R108). -/
def State.queueInUse (s : State) (q : Nat) : Bool :=
  decide ((s.queue q).tail ≠ (s.queue q).head) || s.qHeld q

/-- All indices and counters of a queue to zero. -/
def State.zeroQueue (s : State) (q : Nat) : State := s.setQueue q {}

/-- Whether a binding word is in range for queue q (R108, R109). -/
def State.bindingOk (s : State) (q v : Nat) : Bool :=
  let cons := bits v 31 28
  let depth := 16 * 2 ^ bits v 19 16
  decide (cons < 8) && decide (bits v 19 16 < 9) && (decide (bits v 27 26 = 0) || decide (1 ≤ cons ∧ cons ≤ 3))
    && (decide (cons ≠ 6) || decide (16 ≤ q)) && decide (s.qRing q % (64 * depth) = 0)
    && decide (s.qCompletion q % (16 * depth) = 0)

/-- The value of one of objects 0x3100 to 0x3102 in range (R106, R108, R124). -/
def State.queueValueOk (s : State) (o : QueueObject) (q v : Nat) : Bool :=
  match o with
  | .binding => s.bindingOk q v
  | .ringBase => decide (v = 0) || s.ringOk v (64 * s.qDepth q)
  | .completionBase => decide (v = 0) || s.ringOk v (16 * s.qDepth q)

/-- Write of objects 0x3100 to 0x3102 for queue q (R108): range, then state, in the order of Table KP-5. -/
def State.queueConfig (s : State) (o : QueueObject) (q v : Nat) : State × Nat :=
  if !s.queueValueOk o q v then (s, 0x06)
  else if s.queueInUse q then (s, 0x09)
  else
    let s := match o with
      | .binding => s.setObj 0x3100 (q + 1) (v &&& 0xFD7F0000)
      | .ringBase => s.setObj 0x3101 (q + 1) v
      | .completionBase => s.setObj 0x3102 (q + 1) v
    (s.zeroQueue q, 0)

/-- QUEUE_CONFIG_WRITE (R108). -/
def execQueueConfigWrite (o : QueueObject) (q : QueueId) (value : W64) (s : State) :
    Host.Outcome State Fault Refusal :=
  done (s.answered (s.guarded fun s => s.queueConfig o q
    (match o with
     | .binding => value.toNat % 2 ^ 32
     | _ => value.toNat)))

end Sys2Proof.Machine
end

