-- ==== Sys2Proof/Machine/Steps.lean ====
section
/-! DEFINITION. Steps: what opens and closes one, flips and misses, votes and decisions (R11, R12, R61 to
R65, R272 to R276), and prefetch swap-ins becoming resident (R14, R69, R70). -/

namespace Sys2Proof.Machine

/-- A partition's step. -/
def State.step1 (s : State) (p : Nat) : Step := tget s.streams.steps p {}
/-- Store a partition's step. -/
def State.setStep (s : State) (p : Nat) (v : Step) : State :=
  { s with streams := { s.streams with steps := tset s.streams.steps p v {} } }

/-- Slots bound in a partition's open step. -/
def State.boundSlots (s : State) (p : Nat) : List Nat :=
  s.streams.batches.flatMap fun b => if b.part.val = p then b.rows.filterMap fun r => r.map (·.2) else []

/-- A slot's header with the step's three bits cleared (R63). -/
def Header.unbound (h : Header) : Header := { h with bound := false, step := false, rst := false }

/-- A slot flips at a STEP_COMMIT that acted in epoch e (R63). -/
def State.flipSlot (s : State) (p : Nat) (e : BitVec 48) (i : Nat) : State :=
  let h := s.header p i
  (s.setHeader p i { h.unbound with cur := !h.cur, cepoch := e.toNat }).bump (0x4020 + p) 1

/-- A slot misses; its count stops at its largest value (R63, DESIGN CHOICE, log 16). -/
def State.missSlot (s : State) (p i : Nat) : State :=
  let h := s.header p i
  (s.setHeader p i { h.unbound with miss := Min.min (h.miss + 1) (2 ^ 32 - 1) }).bump (0x4020 + p) 2

/-- The partition's step is over: no batch is bound. -/
def State.closeStep (s : State) (p : Nat) (outcome : Option Decision) : State :=
  let st := s.step1 p
  let s := { s with streams := { s.streams with batches := s.streams.batches.filter fun b => b.part.val ≠ p } }
  s.setStep p { st with isOpen := false, judged := none, window := false,
                        outcome := outcome.map (fun d => (st.epoch, d)) <|> st.outcome }

/-- Every bound slot counts a miss and the step closes (R29, R369, R372). -/
def State.missStep (s : State) (p : Nat) : State :=
  if (s.step1 p).isOpen then ((s.boundSlots p).foldl (fun s i => s.missSlot p i) s).closeStep p none else s

/-- Every open step misses. -/
def State.missAll (s : State) : State := (List.range 8).foldl State.missStep s

/-- Discard open steps without a flip or a count (R71, R379). -/
def State.discardSteps (s : State) : State :=
  let s := s.streams.batches.foldl (fun s b =>
    (b.rows.filterMap fun r => r.map (·.2)).foldl (fun s i =>
      s.setHeader b.part.val i (s.header b.part.val i).unbound) s) s
  { s with streams := { s.streams with batches := [], steps := [] } }

/-- FLIP: complete slots flip, incomplete ones miss (R63, R275). -/
def State.flipStep (s : State) (p : Nat) (e : BitVec 48) (complete incomplete : List Nat) : State :=
  let s := complete.foldl (fun s i => s.flipSlot p e i) s
  (incomplete.foldl (fun s i => s.missSlot p i) s).closeStep p (some .flip)

/-- VOID: no slot flips, each counts a miss, the voided step is counted, 0x0205 is raised (R65, R275). -/
def State.voidStep (s : State) (p : Nat) : State :=
  let s := (s.boundSlots p).foldl (fun s i => s.missSlot p i) s
  ((s.closeStep p (some .void)).bump (0x4020 + p) 3).raise 0x0205 (partByte p)

/-- Act on a group's decision for the step that waits for it (R275); VOID also ends a step that has not been judged
yet (R274, R276). `CEPOCH` of a slot that flips is the epoch of the STEP_COMMIT it was judged at, also where the
decision comes in a later one (DEDUCED, log 131). -/
def State.decideStep (s : State) (p : Nat) (d : Decision) : State :=
  match (s.step1 p).judged with
  | some j =>
    match d with
    | .flip => s.flipStep p j.commitEpoch j.complete j.incomplete
    | .void => s.voidStep p
    | .undecided => s
  | none => if d = .void && (s.step1 p).isOpen then s.voidStep p else s

/-- The chips of a commit group. -/
def groupChips (g : Nat) : List Nat := setList 128 g

/-- A group that spans devices: it holds another chip than this one (R272). -/
def State.spans (s : State) (g : Nat) : Bool := (groupChips g).any fun c => decide (c ≠ s.chip.toNat)

/-- A VC3 step message of this SX4. -/
def State.stepMsg (s : State) (p : Nat) (dest : Nat) (epoch : BitVec 48) (d : Decision) : StepMsg :=
  { dest := BitVec.ofNat 7 dest, src := s.chip, part := ⟨p % 8, by omega⟩, epoch, decision := d }

/-- The coordinator's decision: every participant is told, and this SX4 acts on it (R274, R275). -/
def State.decideGroup (s : State) (p : Nat) (d : Decision) : State :=
  let st := s.step1 p
  let s := (groupChips st.group).foldl (fun s c =>
    if c = s.chip.toNat then s else s.sendRouted (.decide (s.stepMsg p c st.epoch d))) s
  (s.setStep p { s.step1 p with window := false, votes := [], outcome := some (st.epoch, d) }).decideStep p d

/-- FLIP once the coordinator holds every participant's vote within its window (R274). -/
def State.tally (s : State) (p : Nat) : State :=
  let st := s.step1 p
  let has (c : Nat) : Bool := st.votes.any fun v => decide (v.1.toNat = c) && decide (v.2 = st.epoch)
  if st.window && (groupChips st.group).all has then s.decideGroup p .flip else s

/-- Whether a slot's `DONE` was set before this cycle (R11). -/
def State.complete (s : State) (p i : Nat) : Bool :=
  (s.header p i).step && !(decide (s.streams.doneCycle = s.cycle) && decide ((p, i) ∈ s.streams.doneNow))

/-- STEP_COMMIT takes effect for partition p in epoch e (R11, R12, R34, R273, R274). -/
def State.commit (s : State) (p : Nat) (e : BitVec 48) : State :=
  let st := s.step1 p
  if !st.isOpen || st.judged.isSome then s
  else
    let all := s.boundSlots p
    let complete := all.filter fun i => s.complete p i
    let incomplete := all.filter fun i => !s.complete p i
    if !s.spans st.group then s.flipStep p e complete incomplete
    else if st.outcome = some (st.epoch, .void) then s.voidStep p
    else
      let s := s.setStep p { st with judged := some { epoch := st.epoch, commitEpoch := e, complete, incomplete } }
      if st.coordinator = s.chip then
        let st := s.step1 p
        (s.setStep p { st with window := true, votes := st.votes ++ [(s.chip, st.epoch)] }).tally p
      else s.sendRouted (.vote (s.stepMsg p st.coordinator.toNat st.epoch .undecided))

/-! ### Prefetch swap-ins (R69, R70) -/

/-- A tentative slot becomes resident. Up to this event its swap-in is tentative, so the packet carries `SPEC` (R397,
DEDUCED, log 137). -/
def State.makeResident (s : State) (f : Prefetch) : State :=
  let p := f.part.val
  let s := s.emit 12 true (partByte p) 0x21 (f.stream + 2 ^ 32)
  let e := s.entry f.stream
  let s := s.setEntry f.stream { e with life := .resident, pf := false, slot := f.slot }
  let s := s.setHeader p f.slot { s.header p f.slot with tent := false }
  { s with streams := { s.streams with prefetches := s.streams.prefetches.filter (· ≠ f) } }

/-- A prefetch is cancelled: slot released, `PF` clear, counted (R70); `SLOT` is no longer valid. -/
def State.cancelPrefetch (s : State) (f : Prefetch) : State :=
  let p := f.part.val
  let s := s.setLoose f.stream { s.entry f.stream with pf := false }
  let s := s.setHeader p f.slot { s.header p f.slot with valid := false, tent := false }
  let s := { s with streams := { s.streams with prefetches := s.streams.prefetches.filter (· ≠ f) } }
  (s.bump (0x4020 + p) 5).emit 12 false (partByte p) 0x23 f.stream

/-- Every prefetch in flight is cancelled (R70). -/
def State.cancelPrefetches (s : State) : State := s.streams.prefetches.foldl State.cancelPrefetch s

/-- STEP_OPEN takes effect for partition p in epoch e: the step opens for that epoch, the group in force is taken,
and completed swap-ins become resident (R14, R34, R61, R69, R272). -/
def State.openStep (s : State) (p : Nat) (e : BitVec 48) : State :=
  let st := s.step1 p
  if st.isOpen then s
  else
    let s := s.setStep p { st with
      isOpen := true, epoch := e, judged := none, window := false,
      votes := st.votes.filter fun v => decide (v.2 = e),
      group := s.obj 0x3300 (0x30 + p), coordinator := BitVec.ofNat 7 (s.obj 0x3300 (0x38 + p)) }
    let s := (s.streams.prefetches.filter fun f => decide (f.part.val = p) && f.complete).foldl
      State.makeResident s
    { s with streams := { s.streams with prefetches := s.streams.prefetches.map fun f =>
        if f.part.val = p then { f with opened := true } else f } }

end Sys2Proof.Machine
end

