-- ==== Sys2Proof/Machine/Streams.lean ====
section
/-! DEFINITION. Streams: the stream table base, the state descriptors, state records, prefetch swap-ins
(R47 to R78). -/

namespace Sys2Proof.Machine

/-- Slots of partition p whose header holds a stream: listed bytes at byte 3 of a header with bit 7 set. -/
def State.validSlots (s : State) (p : Nat) : List Nat :=
  s.mem.filterMap fun c =>
    if memKey 1 (s.slotArea p) ≤ c.1 ∧ c.1 < memKey 1 (s.slotArea p + s.slotCount p * s.slotSize p) ∧
        (c.1 - memKey 1 (s.slotArea p)) % s.slotSize p = 3 ∧ c.2.toNat.testBit 7
    then some ((c.1 - memKey 1 (s.slotArea p)) / s.slotSize p) else none

/-- A descriptor with opcode 0x30 to 0x34 is running. -/
def State.stateRunning (s : State) : Bool :=
  s.queues.any fun e => match e.2.run with
    | some r => decide (0x30 ≤ r.opc.toNat) && decide (r.opc.toNat ≤ 0x34)
    | none => false

/-- Streams of the table at an old base are abandoned: their prefetch swap-ins release their slots, and nothing is
counted (R49, DESIGN CHOICE, log 132). -/
def State.abandonTable (s : State) : State :=
  let s := s.streams.prefetches.foldl (fun s f =>
    s.setHeader f.part.val f.slot { s.header f.part.val f.slot with valid := false, tent := false }) s
  { s with streams := { s.streams with prefetches := [], commitEpochs := [] } }

/-- Write of object 0x4000:01 (R47, R49). -/
def State.tableBaseWrite (s : State) (v : Nat) : State × Nat :=
  if v % 2 ^ 16 ≠ 0 || v ≥ 2 ^ 48 then (s, 0x06)
  else if s.streams.tableSet && decide (v = s.obj 0x4000 1) then (s, 0)
  else if s.streams.tableSet && (!s.residents.isEmpty || s.stateRunning) then (s, 0x09)
  else
    let s := s.abandonTable.setObj 0x4000 1 v
    ({ s with streams := { s.streams with tableSet := true, clearing := true } }, 0)

/-- STREAM_TABLE_BASE_WRITE: a new base, whose entries the State Mover starts to zero (R49). -/
def execStreamTableBaseWrite (base : W64) (s : State) : Host.Outcome State Fault Refusal :=
  done (s.answered (s.guarded fun s => s.tableBaseWrite base.toNat))

/-- The last entry of a table that is being cleared has been accepted: every entry is Free with `GEN` 0, and the
token counts restart with the table (R49, DESIGN CHOICE, log 17). -/
def State.clearTable (s : State) : State :=
  if s.streams.clearing then
    let s := s.zeroSpan (memKey 0 (s.obj 0x4000 1)) (32 * Config.streamCount)
    { s with streams := { s.streams with
        clearing := false, creates := [], imports := [], exported := [], ends := [] } }
  else s

/-! ### Checks and moves shared by the state descriptors -/

/-- 0x0206 for the queue's descriptor (R51, R78). -/
def State.streamFault (s : State) (q : Nat) (code : Nat := 0x0206) : State :=
  (s.raise code (s.qWho q)).finishFault q code 0

/-- Address of entry i for the State Mover. -/
def State.entryAddr (s : State) (i : Nat) : Nat := localAddr 0 (s.entryOff i)

/-- The slot header of an entry's stream, where one holds it, as the State Mover reads it (R67, R223). -/
def State.entryHeader (s : State) (i : Nat) : Option Nat :=
  let e := s.entry i
  if e.life = .resident || e.pf then some (s.slotOff e.part e.slot) else none

/-- The State Mover reads and writes entry i through the matrix, and reads the slot header of its stream: the code of an
error response (R48, R223, R229). -/
def State.tableAccess (s : State) (who : BitVec 8) (i : Nat) : State × Option Nat :=
  let rq : Rq := { master := 8, who, addr := s.entryAddr i, len := 32, rd := true, wr := true }
  match s.resolve rq with
  | .error d => (s.denied rq d, some d.1)
  | .ok _ =>
    let a := s.eccCheck who (memKey 0 (s.entryOff i)) 32
    if !a.2 then (a.1.eccEvent rq, some 0x0902)
    else match s.entryHeader i with
      | none => (a.1, none)
      | some o =>
        let b := a.1.eccRead who (memKey 1 o) 64
        if b.2 then (b.1, none) else (b.1.eccEvent { rq with addr := localAddr 1 o, len := 64, wr := false }, some 0x0902)

/-- The State Mover's access to entry i passes the matrix for reads and writes (R48): else the descriptor
stops with the response's code (R174). Until the first write of the table's base, and while a table is being cleared,
the descriptor is refused (R49; for the time of the clearing DESIGN CHOICE, log 132). -/
def State.withEntry (s : State) (q i : Nat) (f : State → Entry → State) : State :=
  let p := s.qPart q
  if !s.streams.tableSet || s.streams.clearing || !s.inRange p i then s.streamFault q
  else match s.tableAccess (s.qWho q) i with
    | (s, some c) => s.finishFault q c 0
    | (s, none) => f s (s.entry i)

/-- The lowest free slot of partition p (R67; which free slot is taken is not stated, DESIGN CHOICE, log 133). -/
def State.freeSlot (s : State) (p : Nat) : Option Nat := (List.range (s.slotCount p)).find? (s.slotFree p)

/-- Add to a per-partition token count (Table PG-5). -/
def tally32 (m : Table W32) (p : Nat) : Table W32 := tset m p (tget m p 0 + 1) 0

/-- Region 1 address of a physical offset, for the State Mover (R57). -/
def slotAddr (off : Nat) : Nat := localAddr 1 off

/-- Release a slot. -/
def State.releaseSlot (s : State) (p i : Nat) : State :=
  s.setHeader p i { s.header p i with valid := false, tent := false }

/-- Copy the banked bytes of a stream into the committed half of a slot: the code of an error response. -/
def State.bankToSlot (s : State) (p slot : Nat) (e : Entry) : State × Option Nat :=
  let r := s.mread 8 (partByte p) (localAddr 0 e.bank) e.slen
  match r.2 with
  | .error c => (r.1, some c)
  | .ok l =>
    let w := r.1.mwrite 8 (partByte p) (slotAddr (s.halfOff p slot false)) l
    (w.1, w.2.1)

/-- `CEPOCH` of the banked copy of stream i: the epoch of the state's last commit as it went to its bank (DEDUCED, log
136); of a stream that no step has committed yet it is not stated (DESIGN CHOICE, log 4). -/
def State.bankEpoch (s : State) (i : Nat) : State × Nat :=
  match tget s.streams.commitEpochs i none with
  | some c => (s, c.toNat)
  | none =>
    let f := s.fresh
    (f.1, (Config.freeWord f.2).toNat % 2 ^ 48)

/-- A created stream has no commit yet. -/
def State.forgetEpoch (s : State) (i : Nat) : State :=
  { s with streams := { s.streams with commitEpochs := tset s.streams.commitEpochs i none none } }

/-- The banked copy of stream i now holds a state last committed in epoch c. -/
def State.setBankEpoch (s : State) (i c : Nat) : State :=
  { s with streams := { s.streams with
      commitEpochs := tset s.streams.commitEpochs i (some (BitVec.ofNat 48 c)) none } }

/-- The header of a slot newly filled from the bank or a seed; half 0 is its committed half (DESIGN CHOICE, log 133). -/
def State.newHeader (s : State) (p slot i : Nat) (e : Entry) (tent : Bool) : State :=
  let c := s.bankEpoch i
  let h : Header := {
    valid := true, stream := i, gen := e.gen, slen := e.slen, tent := tent, cepoch := c.2 }
  c.1.setHeader p slot h

/-! ### STATE_IN -/

/-- The stream's local index in a descriptor. -/
def Desc.stream (d : Desc) : Nat := d.f 16 4 % 2 ^ 18
/-- The create or end form. -/
def Desc.form (d : Desc) : Bool := (d.f 16 4).testBit 31

/-- A plain swap-in of a Banked stream (R67). The partition whose slot the stream takes owns it from then on (DEDUCED,
log 134). -/
def State.swapIn (s : State) (q i : Nat) (e : Entry) : State :=
  let p := s.qPart q
  match s.freeSlot p with
  | none => s.streamFault q 0x0201
  | some slot =>
    let s := s.emit 12 false (s.qWho q) 0x20 i
    match s.bankToSlot p slot e with
    | (s, some c) => s.finishFault q c 0
    | (s, none) =>
      let s := (s.newHeader p slot i e false).setEntry i { e with life := .resident, part := p, slot := slot }
      (s.emit 12 false (s.qWho q) 0x21 i).finish q 0 0 0

/-- The plain form on a stream (Table SS-2, R69). -/
def State.stateInPlain (s : State) (q i : Nat) (e : Entry) : State :=
  match e.life with
  | .banked => if e.pf then s.mapRun q fun r => { r with phase := .waiting, stream := i } else s.swapIn q i e
  | .resident => s.finish q 0 0 0
  | _ => s.streamFault q

/-- Whether the queue's running descriptor waits for a condition of its chapter and has this opcode. -/
def State.waitingRun (s : State) (q opc : Nat) : Option Run :=
  match (s.queue q).run with
  | some r => if r.phase = .waiting && !r.asks && decide (r.opc.toNat = opc) then some r else none
  | none => none

/-- STATE_IN, plain form; again, once the prefetch it joined has become resident (R51, R69). -/
def execStateIn (q : QueueId) (s : State) : Host.Outcome State Fault Refusal :=
  done (match s.waitingRun q 0x30 with
  | some r => s.withEntry q r.stream fun s e => s.stateInPlain q r.stream e
  | none => s.serve q (fun d => d.opc = 0x30 && !d.form) (fun _ _ => none)
      (fun t d => t.withEntry q d.stream fun s e => s.stateInPlain q d.stream e))

/-- `SLEN` obeys R56 for partition p. -/
def State.slenOk (s : State) (p n : Nat) : Bool :=
  decide (n % 32 = 0) && decide (32 ≤ n) && decide (n ≤ s.halfSize p)

/-- Ranges of the create form. -/
def createRanges (d : Desc) : Bad := firstBad [
  need (decide (d.f 20 1 ≤ 15)) 20, need (decide (d.f 21 1 ≤ 64)) 21,
  need (decide (d.f 21 1 = 0) || decide (d.f 22 1 ≠ 0)) 22,
  need (decide (d.f 32 6 % 64 = 0)) 32, need (decide (d.f 40 6 % 64 = 0)) 40]

/-- The create form on a Free stream (R52). -/
def State.create (s : State) (q i : Nat) (d : Desc) (e : Entry) : State :=
  let p := s.qPart q
  let slen := d.f 24 2
  if !s.slenOk p slen || decide (e.gen = 2 ^ 32 - 1) then s.streamFault q
  else match s.freeSlot p with
    | none => s.streamFault q 0x0201
    | some slot =>
      let e : Entry := {
        life := .resident, part := p, size := s.obj (0x4010 + p) 1, seed := d.f 20 1, slot,
        gen := e.gen + 1, look := d.f 21 1, home := s.chip.toNat * 2 ^ 18 + i, miss := 0,
        bank := d.f 32 6, slen, ring := d.f 40 6, rsz := d.f 22 1 }
      let s := s.emit 12 false (s.qWho q) 0x20 i
      let r := s.mread 8 (s.qWho q) (s.obj (0x4010 + p) 4 + e.seed * s.seedStride p) slen
      match r.2 with
      | .error c => r.1.finishFault q c 0
      | .ok l =>
        let w := r.1.mwrite 8 (s.qWho q) (slotAddr (s.halfOff p slot false)) l
        let v := w.1.mwrite 8 (s.qWho q) (localAddr 0 e.bank) l
        match w.2.1 <|> v.2.1 with
        | some c => v.1.finishFault q c 0
        | none =>
          let s := v.1.forgetEpoch i
          let s := (s.newHeader p slot i e false).setEntry i e
          let s := s.setBankEpoch i (s.header p slot).cepoch
          let s := { s with streams := { s.streams with creates := tally32 s.streams.creates p } }
          (s.emit 12 false (s.qWho q) 0x21 i).finish q 0 0 0

/-- STATE_IN, create form (R52). -/
def execStateInCreate (q : QueueId) (s : State) : Host.Outcome State Fault Refusal :=
  done (s.serve q (fun d => d.opc = 0x30 && d.form) (fun _ d => createRanges d)
    (fun t d => t.withEntry q d.stream fun s e =>
      match e.life with
      | .free => s.create q d.stream d e
      | .resident => s.finish q 0 0 0
      | _ => s.streamFault q))

/-! ### STATE_OUT (R51, R53, R54, R70) -/

/-- Cancel the prefetch of a stream, if one is in flight (R70). -/
def State.cancelOf (s : State) (i : Nat) : State :=
  match s.streams.prefetches.find? fun f => decide (f.stream = i) with
  | some f => s.cancelPrefetch f
  | none => s

/-- Swap a Resident stream out to its banked copy, for partition p: the code of an error response. Its slot lies in the
slot area of the entry's `PART`; `SLOT` is a free value afterwards (Table SS-1; DESIGN CHOICE, log 123). -/
def State.swapOut (s : State) (p i : Nat) (e : Entry) : State × Option Nat :=
  let h := s.header e.part e.slot
  let r := s.mread 8 (partByte p) (slotAddr (s.halfOff e.part e.slot h.cur)) e.slen
  match r.2 with
  | .error c => (r.1, some c)
  | .ok l =>
    let w := r.1.mwrite 8 (partByte p) (localAddr 0 e.bank) l
    match w.2.1 with
    | some c => (w.1, some c)
    | none =>
      let s := ((w.1.releaseSlot e.part e.slot).setBankEpoch i h.cepoch).setLoose i { e with
        life := .banked, miss := Min.min (e.miss + h.miss) (2 ^ 32 - 1) }
      (s.emit 12 false (partByte p) 0x22 i, none)

/-- Wait for the stream's step, or act on its committed half (R54). -/
def State.whenUnbound (s : State) (q i : Nat) (e : Entry) (f : State → State) : State :=
  if decide (e.life = .resident) && (s.header e.part e.slot).bound then
    s.mapRun q fun r => { r with phase := .waiting, stream := i }
  else f s

/-- The plain form (Table SS-2). -/
def State.stateOutPlain (s : State) (q i : Nat) (e : Entry) : State :=
  match e.life with
  | .banked => (s.cancelOf i).finish q 0 0 0
  | .resident => s.whenUnbound q i e fun s =>
      match s.swapOut (s.qPart q) i e with
      | (s, some c) => s.finishFault q c 0
      | (s, none) => s.finish q 0 0 0
  | _ => s.streamFault q

/-- The end form: the state zeroed, the slot released, the entry Free with its `GEN` (R53). -/
def State.stateOutEnd (s : State) (q i : Nat) (e : Entry) : State :=
  let p := s.qPart q
  let body (s : State) (e : Entry) : State :=
    let w := s.mwrite 8 (s.qWho q) (localAddr 0 e.bank) (zeros e.slen)
    match w.2.1 with
    | some c => w.1.finishFault q c 0
    | none =>
      let s := if e.life = .resident then w.1.zeroSpan (memKey 1 (s.slotOff e.part e.slot)) (s.slotSize e.part) else w.1
      let s := (s.forgetEpoch i).freeEntry i e.gen
      ({ s with streams := { s.streams with ends := tally32 s.streams.ends p } }).finish q 0 0 0
  match e.life with
  | .banked => let s := s.cancelOf i; body s (s.entry i)
  | .resident => s.whenUnbound q i e fun s => body s e
  | _ => s.streamFault q

/-- STATE_OUT, plain form; again, once the step it waited for has closed. -/
def execStateOut (q : QueueId) (s : State) : Host.Outcome State Fault Refusal :=
  done (match s.waitingRun q 0x31 with
  | some r => if (s.readDesc q r.index).form then s
      else s.withEntry q r.stream fun s e => s.stateOutPlain q r.stream e
  | none => s.serve q (fun d => d.opc = 0x31 && !d.form) (fun _ _ => none)
      (fun t d => t.withEntry q d.stream fun s e => s.stateOutPlain q d.stream e))

/-- STATE_OUT, end form; again, once the step it waited for has closed. -/
def execStateOutEnd (q : QueueId) (s : State) : Host.Outcome State Fault Refusal :=
  done (match s.waitingRun q 0x31 with
  | some r => if !(s.readDesc q r.index).form then s
      else s.withEntry q r.stream fun s e => s.stateOutEnd q r.stream e
  | none => s.serve q (fun d => d.opc = 0x31 && d.form) (fun _ _ => none)
      (fun t d => t.withEntry q d.stream fun s e => s.stateOutEnd q d.stream e))

/-! ### STEP_BIND (R60, R61) -/

/-- Ranges of STEP_BIND. -/
def bindRanges (d : Desc) : Bad := firstBad [
  need (decide (d.tag ≠ 0)) 4,
  need (decide (8 ≤ d.f 16 1) && decide (d.f 16 1 ≤ 128) && decide (d.f 16 1 % 8 = 0)) 16,
  need (decide (d.f 24 8 % 64 = 0)) 24]

/-- The local indices of the valid rows of a row list: bits [17:0] of each word with bit [31] set (R60). -/
def rowIndices (l : List Byte) (rows : Nat) : List (Option Nat) :=
  (List.range rows).map fun r =>
    let w := field l (4 * r) 4
    if w.testBit 31 then some (w % 2 ^ 18) else none

/-- Whether a stream may be bound in partition p: Resident there, and not bound (R61). -/
def State.bindable (s : State) (p i : Nat) : Bool :=
  let e := s.entry i
  s.inRange p i && decide (e.life = .resident) && decide (e.part = p) && !(s.header p e.slot).bound

/-- Bind one row (R61). -/
def State.bindRow (s : State) (p tag rmask row i : Nat) : State :=
  let e := s.entry i
  let h := s.header p e.slot
  s.setHeader p e.slot { h with bound := true, batch := tag, row, rst := rmask.testBit row, step := false }

/-- Bind every valid row of a list, or none (R61). A tag already bound in the partition is bound again; its rows are then
those of the later STEP_BIND (DESIGN CHOICE, log 135). -/
def State.bindRows (s : State) (q : Nat) (d : Desc) (rows : List (Option Nat)) : State :=
  let p := s.qPart q
  let st := s.step1 p
  let idx := rows.filterMap id
  if !st.isOpen || st.judged.isSome || !s.streams.tableSet || !(idx.all (s.bindable p)) || !idx.Nodup then
    s.streamFault q
  else
    let b : Batch := {
      part := ⟨p % 8, by omega⟩, tag := BitVec.ofNat 16 d.tag,
      rows := rows.map fun r => r.map fun i => (i, (s.entry i).slot) }
    let s := (List.zip (List.range rows.length) rows).foldl (fun s e => match e.2 with
      | some i => s.bindRow p d.tag (d.f 32 16) e.1 i
      | none => s) s
    ({ s with streams := { s.streams with batches := s.streams.batches ++ [b] } }).finish q 0 0 0

/-- The State Mover's accesses to several entries, up to the first error response. -/
def State.tableAccessAll (s : State) (who : BitVec 8) : List Nat → State × Option Nat
  | [] => (s, none)
  | i :: r => match s.tableAccess who i with
    | (s, some c) => (s, some c)
    | (s, none) => s.tableAccessAll who r

/-- STEP_BIND: an entry of its rows that cannot be reached stops it with the response's code (R174). -/
def execStepBind (q : QueueId) (s : State) : Host.Outcome State Fault Refusal :=
  done (s.serve q (fun d => d.opc = 0x32) (fun _ d => bindRanges d) (fun t d =>
    let r := t.mread 8 (t.qWho q) (d.f 24 8) (4 * d.f 16 1)
    match r.2 with
    | .error c => r.1.finishFault q c 0
    | .ok l =>
      let rows := rowIndices l (d.f 16 1)
      match r.1.tableAccessAll (t.qWho q) ((rows.filterMap id).filter (t.inRange (t.qPart q))) with
      | (s, some c) => s.finishFault q c 0
      | (s, none) => s.bindRows q d rows))

/-! ### State records (R72 to R76) -/

/-- Length of a record (Table SS-4). -/
def recordLen (slen : Nat) : Nat := 128 + roundUp slen 64

/-- The bytes of a record up to its CRC (Table SS-4). -/
def recordBody (e : Entry) (src dest gen mark part cepoch miss : Nat) (st : List Byte) : List Byte :=
  natLe 1 2 ++ natLe 64 2 ++ natLe (recordLen e.slen) 4 ++ natLe e.home 4 ++ natLe src 4 ++ natLe dest 4
    ++ natLe gen 4 ++ natLe mark 4 ++ natLe part 1 ++ natLe e.size 1 ++ natLe e.slen 2 ++ natLe cepoch 6
    ++ natLe e.look 1 ++ natLe e.rsz 1 ++ natLe miss 4 ++ natLe e.seed 1 ++ zeros 19
    ++ st ++ zeros (roundUp e.slen 64 - e.slen)

/-- The whole record: body, CRC, length again, zeros (Table SS-4). -/
def sealRecord (body : List Byte) : List Byte :=
  body ++ natLe (crc32c body) 4 ++ natLe (body.length + 64) 4 ++ zeros 56

/-- Export a stream whose state is at hand (R72, R76). -/
def State.exportFrom (s : State) (q i : Nat) (d : Desc) (e : Entry) : State :=
  let p := s.qPart q
  let dest := d.f 20 4
  let res := decide (e.life = .resident)
  let h := s.header e.part e.slot
  let g := s.mread 8 (s.qWho q) (dest / 2 ^ 18 * 2 ^ 53 + s.entryOff (dest % 2 ^ 18) + 4) 4
  match g.2 with
  | .error c => g.1.finishFault q c 0
  | .ok gl =>
    if leNat gl = 2 ^ 32 - 1 then g.1.streamFault q
    else
      let from' := if res then slotAddr (s.halfOff e.part e.slot h.cur) else localAddr 0 e.bank
      let r := g.1.mread 8 (s.qWho q) from' e.slen
      match r.2 with
      | .error c => r.1.finishFault q c 0
      | .ok st =>
        let f := if res then (r.1, h.cepoch) else r.1.bankEpoch i
        let cep := f.2
        let body := recordBody e (s.chip.toNat * 2 ^ 18 + i) dest (leNat gl + 1) (s.partObj p 12) p cep
          (Min.min (e.miss + if res then h.miss else 0) (2 ^ 32 - 1)) st
        let w := f.1.mwrite 8 (s.qWho q) (d.f 24 8) (sealRecord body)
        match w.2.1 with
        | some c => w.1.finishFault q c 0
        | none =>
          let s := if res then w.1.releaseSlot e.part e.slot else w.1
          let s := (s.setLoose i { s.entry i with life := .sealed, pf := false }).bump (0x4020 + p) 7
          let s := { s with streams := { s.streams with exported := tally32 s.streams.exported p } }
          (s.emit 12 false (s.qWho q) 0x24 (i + (leNat gl + 1) * 2 ^ 32)).finish q 0 0 0

/-- EXPORT by lifecycle state (Table SS-2, R54, R70). -/
def State.exportStream (s : State) (q i : Nat) (d : Desc) (e : Entry) : State :=
  match e.life with
  | .banked => let s := s.cancelOf i; s.exportFrom q i d (s.entry i)
  | .resident => s.whenUnbound q i e fun s => s.exportFrom q i d e
  | _ => s.streamFault q

/-- A record address: a multiple of 64 in this SX4's external memory. -/
def State.recOk (s : State) (a : Nat) : Bool :=
  decide (a % 64 = 0) && (match s.localPlace a with
    | some (r, _) => decide (r = 0)
    | none => false)

/-- EXPORT; again, once the step it waited for has closed. -/
def execExportRecord (q : QueueId) (s : State) : Host.Outcome State Fault Refusal :=
  done (match s.waitingRun q 0x33 with
  | some r => (s.mapRun q Run.again).withAnswers q (s.readDesc q r.index) [] fun t d =>
      t.withEntry q d.stream fun s e => s.exportStream q d.stream d e
  | none => s.serve q (fun d => d.opc = 0x33) (fun t d => need (t.recOk (d.f 24 8)) 24)
      (fun t d => t.withEntry q d.stream fun s e => s.exportStream q d.stream d e))

/-- Import check 1 (Table SS-6): `l` holds the record's `LEN` bytes. -/
def recordOk (l : List Byte) : Bool :=
  let len := field l 4 4
  let slen := field l 30 2
  decide (field l 0 2 = 1) && decide (field l 2 2 = 64) && decide (len = recordLen slen)
    && decide (field l (len - 60) 4 = len)
    && decide (field l 8 4 < 2 ^ 25) && decide (field l 12 4 < 2 ^ 25) && decide (field l 16 4 < 2 ^ 25)
    && decide (field l 28 1 < 8) && decide (field l 44 1 < 16) && allZero (slice l 45 19)
    && allZero (slice l (64 + slen) (len - 128 - slen)) && allZero (slice l (len - 56) 56)
    && decide (field l (len - 64) 4 = crc32c (l.take (len - 64)))

/-- Checks 4 to 6 of Table SS-6, and the import (R74, R75). -/
def State.importInto (s : State) (q i : Nat) (d : Desc) (l : List Byte) (e : Entry) : State :=
  let p := s.qPart q
  let gen := field l 20 4
  let slen := field l 30 2
  if gen ≤ e.gen then (s.bump (0x4020 + p) 9).finish q 1 0 0
  else if gen ≠ e.gen + 1 then s.streamFault q 0x0203
  else if (e.life ≠ .free && e.life ≠ .sealed) || !s.slenOk p slen || field l 38 1 > 64 then s.streamFault q
  else
    let e : Entry := {
      life := .banked, part := p, size := s.obj (0x4010 + p) 1, seed := field l 44 1, gen,
      look := field l 38 1, home := field l 8 4, miss := field l 40 4, bank := d.f 24 6, slen,
      ring := d.f 32 6, rsz := d.f 38 1 }
    let w := s.mwrite 8 (s.qWho q) (localAddr 0 e.bank) (slice l 64 slen)
    match w.2.1 with
    | some c => w.1.finishFault q c 0
    | none =>
      let s := ((w.1.setBankEpoch i (field l 32 6)).setLoose i e).bump (0x4020 + p) 8
      let s := { s with streams := { s.streams with imports := tally32 s.streams.imports p } }
      (s.emit 12 false (s.qWho q) 0x25 (i + gen * 2 ^ 32)).finish q 0 0 0

/-- IMPORT: the checks of Table SS-6 in order. -/
def execImportRecord (q : QueueId) (s : State) : Host.Outcome State Fault Refusal :=
  done (s.serve q (fun d => d.opc = 0x34)
    (fun t d => firstBad [
      need (decide (d.f 16 8 % 64 = 0) && (t.localPlace (d.f 16 8)).isSome) 16,
      need (decide (d.f 24 6 % 64 = 0)) 24, need (decide (d.f 32 6 % 64 = 0)) 32])
    (fun t d =>
      if !t.streams.tableSet || t.streams.clearing then t.streamFault q
      else
        let h := t.mread 8 (t.qWho q) (d.f 16 8) 64
        match h.2 with
        | .error c => h.1.finishFault q c 0
        | .ok hl =>
          if field hl 4 4 ≠ recordLen (field hl 30 2) then h.1.streamFault q 0x0202
          else
            let r := h.1.mread 8 (t.qWho q) (d.f 16 8) (field hl 4 4)
            match r.2 with
            | .error c => r.1.finishFault q c 0
            | .ok l =>
              let dest := field l 16 4
              let p := t.qPart q
              if !recordOk l then r.1.streamFault q 0x0202
              else if dest / 2 ^ 18 ≠ t.chip.toNat || !t.inRange p (dest % 2 ^ 18) then r.1.streamFault q
              else if field l 28 1 ≠ p || field l 24 4 ≠ t.partObj p 12 then r.1.streamFault q 0x0204
              else r.1.withEntry q (dest % 2 ^ 18) fun s e => s.importInto q (dest % 2 ^ 18) d l e))

/-! ### Prefetch (R68, R69) -/

/-- Start the swap-in of one due entry; false when the free slots have run out. While the table is being cleared every
entry is skipped (DESIGN CHOICE, log 132); a stream whose swap-in is in flight stays in it (DEDUCED, log 138); an entry
that cannot be reached ends the action (DESIGN CHOICE, log 18). -/
def State.prefetchOne (s : State) (p w : Nat) : State × Bool :=
  let i := w % 2 ^ 18
  if w ≥ 2 ^ 18 || !s.inRange p i || !s.streams.tableSet || s.streams.clearing then (s.bump (0x4020 + p) 6, true)
  else match s.tableAccess (partByte p) i with
  | (s, some _) => (s, false)
  | (s, none) =>
    let e := s.entry i
    if e.life ≠ .banked then (s.bump (0x4020 + p) 6, true)
    else if e.pf then (s, true)
    else match s.freeSlot p with
    | none => (s.raise 0x0201 (partByte p), false)
    | some slot =>
      let s := (s.newHeader p slot i e true).setEntry i { e with pf := true, part := p, slot := slot }
      let f : Prefetch := { stream := i, part := ⟨p % 8, by omega⟩, slot }
      let s := { s with streams := { s.streams with prefetches := s.streams.prefetches ++ [f] } }
      ((s.bump (0x4020 + p) 4).emit 12 true (partByte p) 0x20 (i + 2 ^ 32), true)

/-- The Almanac's PREFETCH for partition p (R68). A due list that cannot be read ends the action: the error response
has its own record, and nothing more is raised or counted (DESIGN CHOICE, log 18). -/
def State.prefetchDue (s : State) (p arg : Nat) : State :=
  let base := s.obj (0x4010 + p) 5
  let c := s.mread 8 (partByte p) base 4
  match c.2 with
  | .error _ => c.1
  | .ok cl =>
    let n := Min.min (leNat cl) arg
    let r := c.1.mread 8 (partByte p) (base + 4) (4 * n)
    match r.2 with
    | .error _ => r.1
    | .ok l => ((List.range n).foldl (fun a k => if a.2 then a.1.prefetchOne p (field l (4 * k) 4) else a)
        (r.1, true)).1

/-- PREFETCH_SWAP_IN_DONE: the last write of a prefetch swap-in is accepted. It is resident at once if its
partition's STEP_OPEN has passed, else at the next one. A banked copy that cannot be read releases the slot
(R14, R69, DESIGN CHOICE, log 18). -/
def execPrefetchSwapInDone (stream : BitVec 18) (s : State) : Host.Outcome State Fault Refusal :=
  done (match s.streams.prefetches.find? fun f => decide (f.stream = stream.toNat) && !f.complete with
  | none => s
  | some f =>
    let p := f.part.val
    match s.bankToSlot p f.slot (s.entry f.stream) with
    | (s, some _) =>
      let s := (s.setLoose f.stream { s.entry f.stream with pf := false }).releaseSlot p f.slot
      { s with streams := { s.streams with prefetches := s.streams.prefetches.filter (· ≠ f) } }
    | (s, none) =>
      let g := { f with complete := true }
      let s := { s with streams := { s.streams with
        prefetches := s.streams.prefetches.map fun x => if x = f then g else x } }
      if f.opened then s.makeResident g else s)

end Sys2Proof.Machine
end

