-- ==== Sys2Proof/Machine/Tracker.lean ====
section
/-! DEFINITION. The Epoch Tracker: sources, qualification, epochs, ticks (R21 to R32, R39, R40, R436). -/

namespace Sys2Proof.Machine

/-! ### The active page (R33, R34) -/

/-- An entry as it falls due: its place in the epoch (phase × 1,024 + index), its index, its bits. -/
structure Due where
  place : Nat
  index : Nat
  bits : BitVec 128
  deriving DecidableEq, Repr

/-- Entries of the active page that fall due in the current epoch, in firing order (R34). -/
def State.dueEntries (s : State) : List Due :=
  ((s.page s.activePage).filterMap fun e =>
    let n := e.2.toNat
    let every := bits n 47 40
    if every ≠ 0 ∧ s.epoch.toNat % every = bits n 39 32 then
      some { place := bits n 19 0 * 1024 + e.1, index := e.1, bits := e.2 }
    else none).insertionSort fun a b => a.place ≤ b.place

/-- The cycle at which a phase of the current epoch was, or is predicted to be, reached (R35, DEDUCED, log 23). -/
def Tracker.dueCycle (tr : Tracker) (ph : Nat) : Int := Max.max (tr.reachCycle ph) tr.moved

/-- The Almanac fires: the Tracker has time and the device is in RUN or Rest (R29, R368, Table EA-2). -/
def State.almanacRuns (s : State) : Bool :=
  (decide (s.tracker.state = .locked) || decide (s.tracker.state = .flywheel)) &&
    (decide (s.power.dev = .run) || decide (s.power.dev = .rest) || decide (s.power.rest ≠ .none))

/-- The Almanac starts to run within an epoch: entries whose phase has passed are neither fired nor counted (R29, R368). -/
def State.almanacStarts (s : State) : State :=
  { s with almanac := { s.almanac with
      cursor := if s.phase = 0 then 0 else (s.phase + 1) * 1024, backlog := [] } }

/-- b and P of the ending epoch are kept (R39). -/
def Tracker.keepPrev (tr : Tracker) : Tracker :=
  { tr with prev := if tr.running then some (tr.start, tr.period) else none }

/-- Entries of the ending epoch that have not fired go on to the backlog (R34). -/
def State.toBacklog (s : State) (early : Bool) : State :=
  if s.almanacRuns then
    let rest := s.dueEntries.filter fun d => decide (s.almanac.cursor ≤ d.place)
    { s with almanac := { s.almanac with backlog := s.almanac.backlog ++ rest.map fun d =>
        { index := d.index, bits := d.bits, epoch := s.epoch, early, pageB := decide (s.activePage = 2),
          due := s.tracker.dueCycle (bits d.bits.toNat 19 0) } } }
  else { s with almanac := { s.almanac with backlog := [] } }

/-- The running epoch ends: what is left of it and its place in time are kept (R34, R39). -/
def State.endEpoch (s : State) (early : Bool) : State :=
  let s := s.toBacklog early
  { s with tracker := s.tracker.keepPrev }

/-- Stop and zero all timers (Table EA-3); the limit stays readable (DESIGN CHOICE, log 20). -/
def State.clearTimers (s : State) : State :=
  { s with almanac := { s.almanac with timers :=
      (s.almanac.timers.map fun e => (e.1, ({ limit := e.2.limit } : Timer))).filter fun e => e.2 ≠ {} } }

/-- A pending exchange takes effect at a boundary (R43). -/
def State.exchangePage (s : State) : State :=
  if s.obj 0x2103 3 = 2 then
    let n := 3 - s.activePage
    let s := (s.setObj 0x2103 1 n).setObj 0x2103 3 0
    let h := (s.pageHead n).toNat
    let s := if h.testBit 0 then s.clearTimers else s
    s.emit 15 false deviceWide 0x32 (b2n (decide (n = 2)) + bits h 95 80 * 2 ^ 16)
  else s

/-! ### Epoch boundaries -/

/-- Tracker state code (Table EA-2). -/
def TrackerState.code : TrackerState → Nat
  | .idle => 0
  | .acquire => 1
  | .locked => 2
  | .flywheel => 3
  | .lost => 4

/-- Enter a Tracker state; a change is traced (Table TF-3). Entries whose phase passed while the Almanac
stood do not fall due (DESIGN CHOICE, log 21). -/
def State.trackerTo (s : State) (st : TrackerState) : State :=
  if s.tracker.state = st then s
  else
    let was := s.almanacRuns
    let s := { s with tracker := { s.tracker with state := st } }
    let s := if !was && s.almanacRuns then s.almanacStarts else s
    s.emit 15 false deviceWide 0x33 st.code

/-- Source of a code of object 0x2000:01. -/
def sourceOf (n : Nat) : EpochSource :=
  match n with
  | 0 => .divider
  | 1 => .epochRef
  | 2 => .hostTime
  | _ => .trellis

/-- Nominal period in 1/256 cycles. -/
def State.nominal (s : State) : Nat := s.obj 0x2001 0 * 256

/-- The divider's next boundary in 1/256 cycles: the first REFCLK cycle at or after n × T from the moment it
took over (R24). -/
def State.dividerPred (s : State) : Int :=
  256 * (s.tracker.divBase + (roundUp ((s.tracker.divCount + 1) * s.obj 0x2001 0) 10 : Nat))

/-- The divider takes over at cycle x (R24). -/
def State.takeDivider (s : State) (x : Int) : State :=
  let s := { s with tracker := { s.tracker with
    source := .divider, missing := 0, acq := none, divBase := x, divCount := 0, period := s.nominal,
    onPred := false, prevOk := false, ppsPred := none, divPending := false } }
  { s with tracker := { s.tracker with pred := s.dividerPred } }

/-- Sources whose edges mark epoch starts (R24, R39). -/
def EpochSource.edges (src : EpochSource) : Bool := decide (src = .epochRef) || decide (src = .trellis)

/-- A source change takes effect at a boundary (R24). Between two sources whose edges mark epoch starts the rules of
R21 go on unchanged, so that an edge of the new source gives an interval with a qualified edge just before it; after
any other change the first edge gives none (DEDUCED, log 125). -/
def State.changeSource (s : State) (x : Int) : State :=
  let new := sourceOf (s.obj 0x2000 1)
  let tr := s.tracker
  if new = tr.source then s
  else match new with
    | .divider => (s.takeDivider x).trackerTo .locked
    | _ =>
      let pred : Int :=
        if tr.source = .divider then 256 * x + tr.period
        else if tr.onPred && decide (new = .hostTime) then tr.pred + tr.period
        else tr.pred
      let t2 := { tr with source := new, prevOk := tr.prevOk && tr.source.edges && new.edges, ppsPred := none, pred,
                          onPred := tr.onPred && decide (tr.source ≠ .divider) && decide (new ≠ .hostTime) }
      if tr.state = .lost || tr.state = .acquire then
        ({ s with tracker := { t2 with acq := none } }).trackerTo .acquire
      else { s with tracker := t2 }

/-- A state request that waited for the boundary (R369). -/
def State.takeRequest (s : State) : State :=
  match s.power.request with
  | some .run => { s with power := { s.power with dev := .run, request := none } }
  | some .ready =>
    ({ s with power := { s.power with dev := .ready, request := none },
              almanac := { s.almanac with backlog := [] } }).missAll
  | _ => s

/-- The epoch with number e starts at cycle x: the page, the source and the state change at its boundary (R22, R28, R43,
R369, R32, R342). -/
def State.startEpoch (s : State) (e : BitVec 48) (x : Int) : State :=
  let s := { s with tracker := { s.tracker with epoch := e, start := x, running := true, hold := none,
                                                outRise := some (x + 128) },
                    almanac := { s.almanac with cursor := 0 } }
  let s := (s.exchangePage.changeSource x).takeRequest
  if s.tracker.state = .locked || s.tracker.state = .flywheel then s.msix 3 else s

/-- An epoch with number e begins at cycle x, after what the ending one has left (R34). -/
def State.beginWith (s : State) (e : BitVec 48) (x : Int) (early : Bool) : State :=
  (s.endEpoch early).startEpoch e x

/-- The next epoch begins. -/
def State.beginEpoch (s : State) (x : Int) (early : Bool) : State := s.beginWith (s.epoch + 1) x early

/-- The first cycle at or after a time in 1/256 cycles. -/
def ceilCycle (t : Int) : Int := -((-t) / 256)

/-- w × P in 1/256 cycles (R27). -/
def State.windowHalf (s : State) : Int := (s.tracker.period / 2 ^ (6 - Min.min 4 (s.obj 0x2000 2)) : Nat)

/-- R21: a new P from an interval between two qualified edges, in 1/256 cycles; the division truncates
toward zero. -/
def filterPeriod (p : Nat) (i : Int) : Nat := (p + (i - p).tdiv 16).toNat

/-- An epoch begins on prediction: a late edge may still come; in host-time mode none does (Listing EA-1, R24). -/
def State.onPrediction (s : State) : State :=
  let tr := s.tracker
  let s := if tr.source = .hostTime then
      { s with tracker := { tr with pred := tr.pred + tr.period } }
    else { s with tracker := { tr with onPred := true } }
  s.beginEpoch (s.countedInt (ceilCycle tr.pred)) false

/-- PREDICTED_EDGE: with a source whose edges are qualified, an epoch begins on prediction (R28, Listing
EA-1); in host-time mode every epoch begins so (R24). -/
def execPredictedEdge (s : State) : Host.Outcome State Fault Refusal :=
  let tr := s.tracker
  done (if tr.running && !tr.onPred && decide (tr.source ≠ .divider) &&
      (decide (tr.state = .locked) || decide (tr.state = .flywheel)) then
    (s.advance (ceilCycle tr.pred).toNat).onPrediction
  else s)

/-- EPOCH_BOUNDARY: an epoch begins by count, under the divider or in LOST and ACQUIRE (R24, R29, R30). -/
def execEpochBoundary (s : State) : Host.Outcome State Fault Refusal :=
  let tr := s.tracker
  done (if !tr.running then s
  else
    let x := s.countedInt (ceilCycle tr.pred)
    if tr.source = .divider && tr.state = .locked then
      let s := s.advance x.toNat
      -- a nominal period written since the last boundary counts from here (DEDUCED, log 22); after a start from
      -- LOST the divider takes over here (R30)
      let s := if s.tracker.period = s.nominal && !s.tracker.divPending then
          let s := { s with tracker := { s.tracker with divCount := s.tracker.divCount + 1 } }
          { s with tracker := { s.tracker with pred := s.dividerPred } }
        else s.takeDivider x
      s.beginEpoch x false
    else if tr.state = .lost || tr.state = .acquire then
      let s := s.advance x.toNat
      let s := { s with tracker := { s.tracker with pred := tr.pred + tr.period } }
      s.beginEpoch x false
    else s)

/-! ### Edges -/

/-- Spurious edge (R27). -/
def State.spurious (s : State) : State := s.bump 0x2004 2
/-- Qualified edge, acquisition edges included. -/
def State.qualified (s : State) : State := s.bump 0x2004 1

/-- Whether an edge time lies in the window around the predicted edge (R27). -/
def State.inWindow (s : State) (t : Int) : Bool :=
  decide (s.tracker.pred - s.windowHalf ≤ 256 * t) && decide (256 * t ≤ s.tracker.pred + s.windowHalf)

/-- P, the last edge and the next predicted edge after a qualified edge at time t; the Tracker is LOCKED (R21,
Listing EA-1). -/
def State.takeEdge (s : State) (t : Int) : State :=
  let tr := s.tracker
  let p := if tr.prevOk then filterPeriod tr.period (256 * (t - tr.last)) else tr.period
  let s := { s with tracker := { tr with period := p, last := t, prevOk := true, missing := 0,
                                         pred := 256 * t + p, onPred := false } }
  s.qualified.trackerTo .locked

/-- A qualified edge at edge time t: an early one ends the epoch, or moves back the epoch that began on
prediction (Listing EA-1, R436); what changes at a boundary changes after P and the prediction. -/
def State.qualify (s : State) (t : Int) : State :=
  let tr := s.tracker
  if 256 * t < tr.pred then
    if tr.onPred then { s with tracker := { tr with start := t, outRise := some (t + 128) } }.takeEdge t
    else ((s.endEpoch true).takeEdge t).startEpoch (s.epoch + 1) t
  else
    let s := if tr.onPred then s else s.onPrediction
    -- a source that changed at that boundary has edges of its own
    if s.tracker.source = tr.source then s.takeEdge t else s

/-- Every open epoch is set to the current epoch (R345). -/
def State.openEpochs (s : State) : State :=
  let m := (List.range 16).foldl (fun m i => tset m (16 + i) s.epoch 0) s.host.openEpoch
  { s with host := { s.host with openEpoch := m } }

/-- Open epochs follow the number that an acquisition from IDLE gives (R345). -/
def State.openEpochsIf (s : State) (c : Bool) : State := if c then s.openEpochs else s

/-- An acquisition edge begins an epoch: from IDLE with the given number, else with the next one (R30). The edge that
restarts an acquisition begun from IDLE ends a running epoch, and its epoch takes the next number (DESIGN CHOICE,
log 127). -/
def State.acquireAt (s : State) (t : Int) (first : BitVec 48) (span : Int) : State :=
  let fresh := !s.tracker.running
  let src := s.tracker.source
  let s := if fresh then (s.beginWith first t false).openEpochs else s.beginEpoch t true
  let next := { s.tracker with onPred := false, pred := 256 * t + s.tracker.period }
  -- a source that changes at this boundary starts an acquisition of its own, or is the divider (R24)
  let tr : Tracker :=
    if s.tracker.source = src then
      { next with acq := some t, last := t, prevOk := true, ppsPred := some (256 * t + span) }
    else if s.tracker.source = .divider then s.tracker
    else next
  { s with tracker := tr }.qualified

/-- An edge of the selected source in ACQUIRE, with the span of R30. -/
def State.acquireEdge (s : State) (t : Int) (first : BitVec 48) (span : Int) : State :=
  match s.tracker.acq with
  | none => s.acquireAt t first span
  | some a =>
    if (256 * (t - a) - span).natAbs ≤ s.windowHalf.natAbs then
      -- the locking edge: near the predicted boundary it ends or has ended the running epoch
      if s.tracker.source = .hostTime then s
      else if s.tracker.start = a then s.qualify t
      else
        -- the boundary by count has passed just before: that epoch started on prediction
        let s := { s with tracker := { s.tracker with
          pred := s.tracker.pred - s.tracker.period, onPred := true } }
        s.qualify t
    else s.acquireAt t first span

/-- EPOCH_REF_EDGE: a rising edge with edge time t, recognised 102 cycles later (R26 to R30). While the Tracker is
IDLE no window exists and an edge is ignored, not counted as spurious (DESIGN CHOICE, log 126). -/
def execEpochRefEdge (t : Nat) (s : State) : Host.Outcome State Fault Refusal :=
  let t := s.counted t
  let s := s.advance (t + 102)
  done (if s.tracker.source ≠ .epochRef then s
  else match s.tracker.state with
    | .idle => s
    | .lost => s.spurious
    | .acquire => s.acquireEdge t (BitVec.ofNat 48 (s.obj 0x2002 0)) s.nominal
    | _ => if s.inWindow t then s.qualify t else s.spurious)

/-- The source whose pin counts: the one in effect (R24); while the Tracker is IDLE the one that object 0x2000:01
holds (DEDUCED, log 22). -/
def State.sourceNow (s : State) : EpochSource :=
  if s.tracker.state = .idle then sourceOf (s.obj 0x2000 1) else s.tracker.source

/-- FILTERED_PULSE: counted on the pin of the selected source only (R26). -/
def execFilteredPulse (pin : RefPin) (s : State) : Host.Outcome State Fault Refusal :=
  let on : EpochSource := match pin with
    | .epochRef => .epochRef
    | .ppsIn => .hostTime
  done (if s.sourceNow = on then s.bump 0x2004 3 else s)

/-! ### Correcting time (R25, R39) -/

/-- Cycles from an epoch's start until its phase is ph (R22). -/
def phaseCycles (period ph : Nat) : Nat := (ph * period + 2 ^ 28 - 1) / 2 ^ 28

/-- The next boundary by prediction, in 1/256 cycles: `pred`, or one period on where the current epoch has begun on
it (Listing EA-1). -/
def Tracker.nextBoundary (tr : Tracker) : Int := if tr.onPred then tr.pred + tr.period else tr.pred

/-- x of R39: the cycle at which the own time reached, or will reach at its present period, an epoch and phase. An
epoch before the previous one is taken to have run at the present period (DEDUCED, log 129). -/
def Tracker.cycleOf (tr : Tracker) (e : BitVec 48) (ph : Nat) : Int :=
  let d := (e - tr.epoch).toInt
  if 0 < d then ceilCycle (tr.nextBoundary + (d - 1) * tr.period) + phaseCycles tr.period ph
  else if d = 0 then tr.reachCycle ph
  else match tr.prev with
    | some (b, p) =>
      if d = -1 then b + phaseCycles p ph
      else ceilCycle (256 * b + (d + 1) * tr.period) + phaseCycles tr.period ph
    | none => ceilCycle (256 * tr.start + d * tr.period) + phaseCycles tr.period ph

/-- Begin the epoch at the next predicted boundary when time that was moved forward has reached it (R39). What the
ended epoch has left counts as catch-up entries (DEDUCED, log 128). -/
def State.passBoundary (s : State) : State :=
  let tr := s.tracker
  let x := tr.nextBoundary
  if x ≤ 256 * (s.cycle : Int) ∧ tr.source ≠ .divider then
    let t : Tracker := if tr.source = .hostTime then { tr with pred := x + tr.period }
      else { tr with pred := x, onPred := true }
    { s with tracker := t }.beginEpoch (ceilCycle x) true
  else s

/-- Own time shifted by ε cycles (R39): a phase held stays held until own time has reached it. -/
def Tracker.shift (tr : Tracker) (now : Nat) (eps : Int) : Tracker :=
  { tr with
    start := tr.start - eps, pred := tr.pred - 256 * eps, moved := if 0 < eps then now else tr.moved,
    outRise := tr.outRise.map fun x => if (now : Int) < x then x - eps else x,
    hold := match tr.hold with
      | some (till, ph) =>
        if (now : Int) < till then (if (now : Int) < till - eps then some (till - eps, ph) else none)
        else if eps < 0 then some (now - eps, BitVec.ofNat 20 (tr.phaseAt now)) else none
      | none => if eps < 0 then some (now - eps, BitVec.ofNat 20 (tr.phaseAt now)) else none }

/-- Advance the time by ε cycles, or hold the phase for −ε cycles (R39). Every epoch whose start is thereby
reached begins at once; the entries that an ended epoch has left fire as catch-up entries and count as such (beside
R34; DEDUCED, log 128). -/
def State.correctTime (s : State) (eps : Int) : State :=
  let s := { s with tracker := s.tracker.shift s.cycle eps }
  if 0 < eps then
    loopN (fun _ s => s.passBoundary)
      ((256 * (s.cycle : Int) - s.tracker.nextBoundary) / s.tracker.period + 1).toNat s
  else s

/-- The written mark is used up. -/
def State.dropMark (s : State) : State := { s with tracker := { s.tracker with mark := none } }

/-- Apply a written mark at a qualified PPS_IN edge at time t (R25). -/
def State.applyMark (s : State) (t : Int) : State :=
  match s.tracker.mark with
  | none => s
  | some (e, ph) =>
    let eps := s.tracker.cycleOf e ph.toNat - t
    if 256 * eps.natAbs ≤ s.windowHalf.natAbs then (s.correctTime eps).dropMark
    else s.spurious.dropMark

/-- One second in 1/256 cycles. -/
def second : Int := 256 * 1000000000

/-- A qualified PPS_IN edge: P from the one-second interval, the next window, the mark (R24, R25). -/
def State.qualifyPps (s : State) (t : Int) : State :=
  let tr := s.tracker
  let i : Int := (s.nominal : Int) * (t - tr.last) / 1000000000
  let p := if tr.prevOk then filterPeriod tr.period i else tr.period
  let s := { s with tracker := { tr with
    period := p, pred := tr.pred + ((p : Int) - tr.period), last := t, prevOk := true, missing := 0,
    ppsPred := some (256 * t + second) } }
  ((s.qualified.trackerTo .locked)).applyMark t

/-- A mark at the acquisition edge at time t is taken outright: the epoch starts so that its phase reaches the mark's
at t (R22, R30). -/
def State.takeMark (s : State) (t : Int) : State :=
  let tr := s.tracker
  match tr.mark with
  | none => s
  | some (e, ph) =>
    let st : Int := t - phaseCycles tr.period ph.toNat
    { s with tracker := { tr with
      epoch := e, start := st, mark := none, prev := none,
      pred := if tr.source = .hostTime then 256 * st + tr.period else tr.pred } }

/-- PPS_IN_EDGE: a rising edge with edge time t in host-time mode (R24 to R30); while the Tracker is IDLE it is ignored
(DESIGN CHOICE, log 126). The first edge after a change to host time is a qualified edge of Listing EA-1 in all but
the interval: it ends a run of missing marks, and the Tracker is LOCKED (DEDUCED, log 125). -/
def execPpsInEdge (t : Nat) (s : State) : Host.Outcome State Fault Refusal :=
  let t := s.counted t
  let s := s.advance (t + 102)
  let ti : Int := t
  let acquire := (s.acquireAt ti (BitVec.ofNat 48 (s.obj 0x2002 0)) second).takeMark ti
  done (if s.tracker.source ≠ .hostTime then s
  else match s.tracker.state with
    | .idle => s
    | .lost => s.spurious
    | .acquire =>
      (match s.tracker.acq with
       | some a =>
         if (256 * (ti - a) - second).natAbs ≤ s.windowHalf.natAbs then s.qualifyPps ti else acquire
       | none => acquire).openEpochsIf (decide (s.tracker.running = false))
    | _ =>
      match s.tracker.ppsPred with
      | none => s.qualifyPps ti
      | some x => if (256 * ti - x).natAbs ≤ s.windowHalf.natAbs then s.qualifyPps ti else s.spurious)

/-- A missing edge or one-second mark (R28, R29). -/
def State.missedWindow (s : State) : State :=
  let s := { s with tracker := { s.tracker with prevOk := false, missing := s.tracker.missing + 1 } }
  if s.tracker.missing = 1 then
    ((s.trackerTo .flywheel).bump 0x2004 4).raise 0x0101 deviceWide
  else if s.tracker.missing = 17 then
    let s := ((s.trackerTo .lost).raise 0x0102 deviceWide).missAll
    { s with almanac := { s.almanac with backlog := [] } }
  else s

/-- WINDOW_CLOSE: the window closes without a qualified edge, 102 cycles after its end (R28, R436). -/
def execWindowClose (s : State) : Host.Outcome State Fault Refusal :=
  let tr := s.tracker
  let live := decide (tr.state = .locked) || decide (tr.state = .flywheel)
  done (if !live || !tr.running then s
  else match tr.source with
    | .divider => s
    | .hostTime =>
      match tr.ppsPred with
      | none => s
      | some x =>
        let s := s.advance (ceilCycle (x + s.windowHalf) + 102).toNat
        ({ s with tracker := { s.tracker with ppsPred := some (x + second) } }).missedWindow
    | _ =>
      let close := ceilCycle (tr.pred + s.windowHalf) + 102
      let s := s.advance close.toNat
      let s := if tr.onPred then s else s.onPrediction
      if s.tracker.source = tr.source then
        { s with tracker := { s.tracker with
          onPred := false, pred := s.tracker.pred + s.tracker.period } }.missedWindow
      else s)

/-! ### Starting (R30) -/

/-- A write to object 0x2000:04. -/
def State.startTracker (s : State) (v : Nat) : State × Nat :=
  if v = 0 then (s, 0)
  else
    let src := sourceOf (s.obj 0x2000 1)
    match s.tracker.state with
    | .idle =>
      let s := { s with tracker := { s.tracker with source := src, period := s.nominal, acq := none } }
      if src = .divider then
        let s := (s.takeDivider s.cycle).trackerTo .locked
        (((s.beginWith (BitVec.ofNat 48 (s.obj 0x2002 0)) s.cycle false)).openEpochs, 0)
      else (s.openEpochs.trackerTo .acquire, 0)
    | .lost =>
      if src = .divider then
        (({ s with tracker := { s.tracker with
            source := .divider, missing := 0, onPred := false, divPending := true } }).openEpochs.trackerTo .locked, 0)
      else (({ s with tracker := { s.tracker with source := src, acq := none, onPred := false } }
        ).openEpochs.trackerTo .acquire, 0)
    | _ => (s, 0x09)

/-- TRACKER_START: a write of 1 to object 0x2000:04 (R30). -/
def execTrackerStart (s : State) : Host.Outcome State Fault Refusal := done (s.answered (s.startTracker 1))

/-- Write of object 0x2005:00: 12 bytes (R25). -/
def State.hostMark (s : State) (l : List Byte) : State × Nat :=
  if l.length ≠ 12 then (s, 0x05)
  else if field l 6 2 ≠ 0 || field l 8 4 ≥ 2 ^ 20 then (s, 0x06)
  else ({ s with tracker := { s.tracker with
      mark := some (BitVec.ofNat 48 (field l 0 6), BitVec.ofNat 20 (field l 8 4)) } }, 0)

/-- HOST_EPOCH_MARK (R25). -/
def execHostEpochMark (bytes : List Byte) (s : State) : Host.Outcome State Fault Refusal :=
  done (s.answered (s.hostMark bytes))

/-! ### Ticks (R39, R40, R271) -/

/-- Send a tick on every port of the forward mask that is UP (object 0x2006:03). -/
def State.sendTicks (s : State) (e : BitVec 48) (ph : BitVec 20) (corr : W32) : State :=
  (setList 8 (s.obj 0x2006 3)).foldl (fun s l =>
    if (s.link l).state = .up then s.sendOn l (.tick e ph corr) else s) s

/-- TICK_SEND: the epoch master's tick at the next phase that is a multiple of 0x1_0000. -/
def execTickSend (s : State) : Host.Outcome State Fault Refusal :=
  let tr := s.tracker
  let ph := roundUp s.phase 0x10000
  done (if s.obj 0x2006 1 = s.chip.toNat && decide (tr.source ≠ .trellis) &&
      (decide (tr.state = .locked) || decide (tr.state = .flywheel)) && decide (ph < 2 ^ 20) then
    let s := s.advance (tr.reachCycle ph).toNat
    s.sendTicks s.epoch (BitVec.ofNat 20 ph) 0
  else s)

/-- The last and the largest tick error, and 0x0105 beyond 50 ns (R40); an error that its object cannot hold wraps in
the first and stops at the largest value in the second (DESIGN CHOICE, log 129). -/
def State.tickError (s : State) (eps : Int) : State :=
  let s := s.setObj 0x2007 1 (BitVec.ofInt 32 eps).toNat
  let s := s.setObj 0x2007 2 (Max.max (s.obj 0x2007 2) (Min.min eps.natAbs (2 ^ 32 - 1)))
  if eps.natAbs > 50 then s.raise 0x0105 deviceWide else s

/-- A phase-0 tick inside its window is a qualified edge, after its correction has put the own time right (R28, R39):
the epoch it starts has begun, or begins with it. A source that changed at a boundary just passed has edges of its
own. -/
def State.takeTickEdge (s : State) (t : Int) : State :=
  if s.tracker.source ≠ .trellis then s
  else if s.tracker.onPred || decide (256 * t < s.tracker.pred - s.windowHalf) then s.takeEdge t else s.qualify t

/-- A tick at a follower: `at0` is a − D − c, when the master was at the tick's epoch and phase (R39). In LOCKED and
FLYWHEEL its correction is applied in full, and a phase-0 tick is then judged as an edge against the prediction that
stood before it. In IDLE, ACQUIRE and LOST no tick is compared with the own time, and a tick of another phase than 0
has no effect (DESIGN CHOICE, log 129). -/
def State.tickFollow (s : State) (e : BitVec 48) (ph : BitVec 20) (at0 : Int) : State :=
  match s.tracker.state with
  | .idle => s
  | .lost => if ph = 0 then s.spurious else s
  | .acquire => if ph = 0 then s.acquireEdge at0 e s.nominal else s
  | _ =>
    let eps := s.tracker.cycleOf e ph.toNat - at0
    let s := s.tickError eps
    let tr := s.tracker
    if ph ≠ 0 then s.correctTime eps
    else if !s.inWindow at0 then (s.correctTime eps).spurious
    else if 256 * at0 < tr.pred && decide (e = if tr.onPred then tr.epoch else tr.epoch + 1) then s.qualify at0
    else (s.correctTime eps).takeTickEdge at0

/-- TICK: a tick accepted on the upstream port is followed and forwarded with its residence time (R39, R271). -/
def execTick (port : Port) (seq : BitVec 12) (epoch : BitVec 48) (phase : BitVec 20) (corr : W32)
    (arrival : Nat) (s : State) : Host.Outcome State Fault Refusal :=
  let s := s.advance arrival
  done (s.onPacket port seq (.tick epoch phase corr) fun s =>
    if s.obj 0x2006 2 ≠ port.val then s
    else
      let d := s.obj 0x3300 (0x10 + port.val)
      let s := if s.tracker.source = .trellis then
          s.tickFollow epoch phase ((arrival : Int) - d - corr.toNat)
        else s
      s.sendTicks epoch phase (corr + BitVec.ofNat 32 (d + (s.cycle - arrival))))

end Sys2Proof.Machine
end

