-- ==== Sys2Proof/Machine/Almanac.lean ====
section
/-! DEFINITION. The Almanac: what falls due, firing and skipping, the actions but `REST` and `WAKE`, timers,
the exchange of pages and its validation (R33 to R46). -/

namespace Sys2Proof.Machine

/-! ### Entry fields (Table EA-4) -/

/-- `ARG`. -/
def entArg (b : Nat) : Nat := bits b 127 96
/-- `TARGET`. -/
def entTarget (b : Nat) : Nat := bits b 95 80
/-- `ACTION`. -/
def entAction (b : Nat) : Nat := bits b 63 60
/-- `PART`. -/
def entPart (b : Nat) : Nat := bits b 58 56
/-- `EVERY`. -/
def entEvery (b : Nat) : Nat := bits b 47 40
/-- `OFFSET`. -/
def entOffset (b : Nat) : Nat := bits b 39 32
/-- `PHASE`. -/
def entPhase (b : Nat) : Nat := bits b 19 0

/-- Queues that an INGEST_CUTOFF selects. -/
def cutoffQueues (b : Nat) : List Nat := (setList 16 (entTarget b)).map (· + 16)

/-- A queue bound to a consumer and owned by partition p (R42, R45). -/
def State.boundFor (s : State) (p q cons : Nat) : Bool :=
  decide (s.qPart q = p) && decide (s.qCons q = cons)

/-- Whether `PART` owns the entry's target, bound to the consumer its action requires (R42, R45, R118); `all` asks
for every queue of an INGEST_CUTOFF, else for some (DEDUCED, log 24). When due, a queue that is still `PART`'s but bound
to another consumer counts as lost too (DESIGN CHOICE, log 130). -/
def State.targetOk (s : State) (all : Bool) (b : Nat) : Bool :=
  let p := entPart b
  let t := entTarget b
  match entAction b with
  | 0x1 =>
    if all then (cutoffQueues b).all fun q => s.boundFor p q 6
    else (cutoffQueues b).isEmpty || (cutoffQueues b).any fun q => s.boundFor p q 6
  | 0x3 => decide (s.qPart (t % 32) = p) && decide (1 ≤ s.qCons (t % 32)) && decide (s.qCons (t % 32) ≤ 5)
  | 0x4 => s.owns p 2 (selCounter t)
  | 0x6 => s.boundFor p (t % 32) 7
  | 0x9 => decide (p = s.powerPart)
  | 0xA => decide (p = s.powerPart)
  | _ => true

/-! ### Falling due and firing (R34, R35, R37) -/

/-- The entry that fires next, if its turn has come: the backlog first, then the current epoch's entries in
order as the phase reaches them. -/
def State.nextFiring (s : State) : Option Backlog :=
  if !s.almanacRuns then none
  else match s.almanac.backlog with
    | b :: _ => some b
    | [] =>
      match s.dueEntries.find? fun d => decide (s.almanac.cursor ≤ d.place) with
      | some d =>
        if entPhase d.bits.toNat ≤ s.phase then
          some { index := d.index, bits := d.bits, epoch := s.epoch, early := false,
                 due := s.tracker.dueCycle (entPhase d.bits.toNat), pageB := decide (s.activePage = 2) }
        else none
      | none => none

/-- Take the entry off: the backlog's head, or the place of the current epoch. -/
def State.popFiring (s : State) (b : Backlog) : State :=
  match s.almanac.backlog with
  | _ :: r => { s with almanac := { s.almanac with backlog := r } }
  | [] => { s with almanac := { s.almanac with cursor := entPhase b.bits.toNat * 1024 + b.index + 1 } }

/-- Payload of events 0x30 and 0x31 (Table TF-3). -/
def Backlog.payload (b : Backlog) : Nat :=
  b.index + b2n b.pageB * 2 ^ 10 + entAction b.bits.toNat * 2 ^ 12 + b.epoch.toNat % 2 ^ 32 * 2 ^ 16

/-- Whether an entry takes effect when due: its index in `PART`'s range (R289), its target (R45), and, from
REST until dispatch is accepted again, only WAKE and the timers (R37). -/
def State.takesEffect (s : State) (b : Backlog) : Bool :=
  let n := b.bits.toNat
  s.entryRange (entPart n) b.index && s.targetOk false n &&
    (decide (s.power.rest = .none) || decide (entAction n ∈ [7, 8, 9]))

/-- A due entry fires with effect f, or is skipped and counted; a catch-up entry that is skipped counts as skipped only
(DEDUCED, log 128). -/
def State.fired (s : State) (b : Backlog) (f : State → Backlog → State) : State :=
  let who := partByte (entPart b.bits.toNat)
  let s := s.popFiring b
  if s.takesEffect b then
    let s := if b.early then s.bump 0x2103 7 else s
    let s := if (s.cycle : Int) - b.due > 1024 then (s.bump 0x2103 5).raise 0x0104 who else s
    f (s.emit 15 false who 0x30 b.payload) b
  else (s.bump 0x2103 6).emit 15 false who 0x31 b.payload

/-- The cycle in which the next entry can fire: at most one entry fires per CCLK cycle (R34). -/
def State.fireCycle (s : State) : State :=
  let s := if s.almanac.lastFire = some s.cycle then s.advance (s.cycle + 1) else s
  { s with almanac := { s.almanac with lastFire := some s.cycle } }

/-- Entry k with action `act` comes up at cycle t: it fires if it is the next in order, at t or in the next cycle where
another entry has fired at t (R34). -/
def State.fire (s : State) (k : EntryId) (t act : Nat) (f : State → Backlog → State) : State :=
  let s := s.advance t
  match s.nextFiring with
  | some b => if b.index = k.val && decide (entAction b.bits.toNat = act) then s.fireCycle.fired b f else s
  | none => s

/-- The epoch and phase at which an entry acts: the present ones, or, of an ended epoch, that epoch and the entry's
phase (R34, DEDUCED, log 128). -/
def State.actingTime (s : State) (b : Backlog) : BitVec 48 × Nat :=
  if b.epoch = s.epoch then (s.epoch, s.phase) else (b.epoch, entPhase b.bits.toNat)

/-! ### Actions (Table EA-5) -/

/-- Offset in region 0 of partition p's frame list for epoch e (R349). -/
def State.listOff (s : State) (p : Nat) (e : BitVec 48) : Nat := s.obj 0x3500 (0x10 + p) + e.toNat % 2 * 2 ^ 21

/-- Set up partition p's frame list for epoch e, at the first cutoff of the epoch before (R350). -/
def State.setUpList (s : State) (p : Nat) (e : BitVec 48) : State :=
  if (p, e) ∈ s.host.lists then s
  else
    let s := { s with host := { s.host with lists := (p, e) :: s.host.lists.filter fun x =>
      !(decide (x.1 = p) && decide (x.2.toNat % 2 = e.toNat % 2)) } }
    (s.mwrite 13 (partByte p) (localAddr 0 (s.listOff p e)) (zeros 8 ++ natLe e.toNat 6 ++ zeros 50)).1

/-- The cutoff of epoch c on one queue: its open epoch becomes c + 1 and its buffers of earlier epochs return
(R345, R348, DEDUCED, log 25). -/
def State.cutQueue (s : State) (c : BitVec 48) (q : Nat) : State :=
  let s := { s with host := { s.host with
    openEpoch := tset s.host.openEpoch q (c + 1) 0,
    buffers := s.host.buffers.filter fun b => !(decide (b.queue.val = q) && decide ((c - b.epoch).toInt > 0)) } }
  s.setUpList (s.qPart q) (c + 1)

/-- INGEST_CUTOFF for the entry's epoch on the queues still bound for it. -/
def State.cutoff (s : State) (b : Backlog) : State :=
  ((cutoffQueues b.bits.toNat).filter fun q => s.boundFor (entPart b.bits.toNat) q 6).foldl
    (fun s q => s.cutQueue b.epoch q) s

/-- INGEST_CUTOFF (R9, R345, R348, R350). -/
def execIngestCutoff (k : EntryId) (t : Nat) (s : State) : Host.Outcome State Fault Refusal :=
  done (s.fire k t 1 State.cutoff)

/-- STEP_OPEN (R14, R61, R272). -/
def execStepOpen (k : EntryId) (t : Nat) (s : State) : Host.Outcome State Fault Refusal :=
  done (s.fire k t 2 fun s b => s.openStep (entPart b.bits.toNat) b.epoch)

/-- RELEASE (R36, R116). -/
def execAlmanacRelease (k : EntryId) (t : Nat) (s : State) : Host.Outcome State Fault Refusal :=
  done (s.fire k t 3 fun s b => s.release (entTarget b.bits.toNat % 32) (entArg b.bits.toNat))

/-- SIGNAL (R87). -/
def execAlmanacSignal (k : EntryId) (t : Nat) (s : State) : Host.Outcome State Fault Refusal :=
  done (s.fire k t 4 fun s b =>
    s.addCounter (selCounter (entTarget b.bits.toNat)) (BitVec.ofNat 32 (entArg b.bits.toNat)))

/-- STEP_COMMIT (R11, R12, R63, R273). -/
def execStepCommit (k : EntryId) (t : Nat) (s : State) : Host.Outcome State Fault Refusal :=
  done (s.fire k t 5 fun s b => s.commit (entPart b.bits.toNat) b.epoch)

/-- PUBLISH: as RELEASE, on a Publish queue (R36, R13). -/
def execAlmanacPublish (k : EntryId) (t : Nat) (s : State) : Host.Outcome State Fault Refusal :=
  done (s.fire k t 6 fun s b => s.release (entTarget b.bits.toNat % 32) (entArg b.bits.toNat))

/-- PREFETCH (R68). -/
def execPrefetch (k : EntryId) (t : Nat) (s : State) : Host.Outcome State Fault Refusal :=
  done (s.fire k t 0xB fun s b => s.prefetchDue (entPart b.bits.toNat) (entArg b.bits.toNat))

/-! ### Timers (R38) -/

/-- A timer. -/
def State.timer (s : State) (n : Nat) : Timer := tget s.almanac.timers n {}
/-- Store a timer. -/
def State.setTimer (s : State) (n : Nat) (v : Timer) : State :=
  { s with almanac := { s.almanac with timers := tset s.almanac.timers n v {} } }

/-- Elapsed epochs (saturating) and phase of a timer at an epoch and phase: one count of epochs × 2^20 + phase (DEDUCED,
log 26). -/
def State.timerAt (s : State) (n : Nat) (at1 : BitVec 48 × Nat) : W32 × BitVec 20 :=
  let v := s.timer n
  if v.running then
    let now := at1.1.toNat * 2 ^ 20 + at1.2
    let was := v.startEpoch.toNat * 2 ^ 20 + v.startPhase.toNat
    let d := (now + 2 ^ 68 - was) % 2 ^ 68
    (BitVec.ofNat 32 (Min.min (d / 2 ^ 20) (2 ^ 32 - 1)), BitVec.ofNat 20 d)
  else (v.epochs, v.phase)

/-- The present value of a timer (R38). -/
def State.timerValue (s : State) (n : Nat) : W32 × BitVec 20 := s.timerAt n (s.epoch, s.phase)

/-- Zero a timer and start it with a limit, at an epoch and phase. -/
def State.startTimer (s : State) (n limit : Nat) (at1 : BitVec 48 × Nat) : State :=
  s.setTimer n { running := true, startEpoch := at1.1, startPhase := BitVec.ofNat 20 at1.2,
                 limit := BitVec.ofNat 32 limit }

/-- Stop a running timer at an epoch and phase; its value is kept. -/
def State.stopTimer (s : State) (n : Nat) (at1 : BitVec 48 × Nat) : State :=
  let v := s.timer n
  if v.running then
    let e := s.timerAt n at1
    s.setTimer n { v with running := false, startEpoch := 0, startPhase := 0, epochs := e.1, phase := e.2 }
  else s

/-- TIMER_START (R38). -/
def execTimerStart (k : EntryId) (t : Nat) (s : State) : Host.Outcome State Fault Refusal :=
  done (s.fire k t 7 fun s b => s.startTimer (entTarget b.bits.toNat % 32) (entArg b.bits.toNat)
    (s.actingTime b))

/-- TIMER_STOP (R38). -/
def execTimerStop (k : EntryId) (t : Nat) (s : State) : Host.Outcome State Fault Refusal :=
  done (s.fire k t 8 fun s b => s.stopTimer (entTarget b.bits.toNat % 32) (s.actingTime b))

/-- A timer whose elapsed epochs have reached its non-zero limit stops at the limit and sets expired. -/
def State.expireTimer (s : State) (n : Nat) : State :=
  let v := s.timer n
  if v.running && decide (v.limit ≠ 0) && decide (v.limit ≤ (s.timerValue n).1) then
    s.setTimer n { running := false, expired := true, epochs := v.limit, phase := 0, limit := v.limit }
  else s

/-- TIMER_EXPIRE (R38). -/
def execTimerExpire (n : Fin 32) (s : State) : Host.Outcome State Fault Refusal := done (s.expireTimer n)

/-! ### Exchanging pages (R42 to R44) -/

/-- The 16,384 entry bytes of a page. -/
def State.pageBytes (s : State) (n : Nat) : List Byte :=
  (List.range 1024).flatMap fun i => natLe (s.pageEntry n i) 16

/-- Reserved bits of the target of an action (Table EA-5). -/
def targetReserved (act t : Nat) : Bool :=
  match act with
  | 0x3 => decide (t ≥ 32)
  | 0x4 => decide (bits t 7 6 ≠ 0) || decide (bits t 15 10 ≠ 0)
  | 0x6 => decide (t ≥ 32)
  | 0x7 => decide (t ≥ 32)
  | 0x8 => decide (t ≥ 32)
  | _ => false

/-- An entry breaks reason 2 of R42: a reserved bit, action or target bit, or an unused entry not all zero. -/
def reason2 (b : Nat) : Bool :=
  if entEvery b = 0 || entAction b = 0 then decide (b ≠ 0)
  else decide (bits b 79 64 ≠ 0) || b.testBit 59 || decide (bits b 55 48 ≠ 0) || decide (bits b 31 20 ≠ 0)
    || decide (entAction b ≥ 0xC) || targetReserved (entAction b) (entTarget b)

/-- `TARGET` and `ARG` in the range of Table EA-5. -/
def argOk (b : Nat) : Bool :=
  let a := entArg b
  let z := decide (entTarget b = 0)
  match entAction b with
  | 0x1 => a = 0
  | 0x2 => a = 0 && z
  | 0x3 => 1 ≤ a && a ≤ 4096
  | 0x4 => true
  | 0x5 => a = 0 && z
  | 0x6 => 1 ≤ a && a ≤ 4096
  | 0x7 => true
  | 0x8 => a = 0
  | 0x9 => a = 0 && z
  | 0xA => a = 0 && z
  | 0xB => 1 ≤ a && a ≤ 24576 && z
  | _ => false

/-- A phase in the inclusive window of object 08 of a partition, which may wrap (Table PG-1). -/
def inAlmanacWindow (w ph : Nat) : Bool :=
  let a := bits w 39 20
  let z := bits w 19 0
  if a ≤ z then decide (a ≤ ph) && decide (ph ≤ z) else decide (a ≤ ph) || decide (ph ≤ z)

/-- The reason for which a page is refused, if any: the lowest number that holds (R42, DESIGN CHOICE, log 27). -/
def State.pageReason (s : State) (n : Nat) : Option Nat :=
  let h := (s.pageHead n).toNat
  let all := List.range 1024
  let ent (i : Nat) : Nat := s.pageEntry n i
  let used (i : Nat) : Bool := decide (ent i ≠ 0)
  let has (a : Nat) : Bool := all.any fun i => used i && decide (entAction (ent i) = a)
  if bits h 127 96 ≠ crc32c (s.pageBytes n) then some 1
  else if bits h 79 1 ≠ 0 || all.any fun i => reason2 (ent i) then some 2
  else if all.any fun i => used i && (decide (entOffset (ent i) ≥ entEvery (ent i)) || !argOk (ent i)) then some 3
  else if all.any fun i => used i && decide (entAction (ent i) < 9) && !s.targetOk true (ent i) then some 4
  else if all.any fun i => used i && (!s.entryRange (entPart (ent i)) i ||
      (s.isSealed (entPart (ent i)) && !inAlmanacWindow (s.partObj (entPart (ent i)) 8) (entPhase (ent i)))) then
    some 5
  else if (has 0xA && !has 9) || all.any fun i => used i && decide (entAction (ent i) ∈ [9, 0xA]) &&
      decide (entPart (ent i) ≠ s.powerPart) then some 6
  else none

/-- A write to object 0x2103:02 (R42, R44). -/
def State.exchangeWrite (s : State) (v : Nat) : State × Nat :=
  let st := s.obj 0x2103 3
  if v > 2 then (s, 0x06)
  else if v = 0 then
    (if st = 1 || st = 2 then (s.setObj 0x2103 2 0).setObj 0x2103 3 0 else s, 0)
  else if v = s.activePage || st = 1 || st = 2 then (s, 0x09)
  else ((s.setObj 0x2103 2 v).setObj 0x2103 3 1, 0)

/-- ALMANAC_EXCHANGE_REQUEST (R42, R44). -/
def execAlmanacExchangeRequest (page : BitVec 8) (s : State) : Host.Outcome State Fault Refusal :=
  done (s.answered (s.exchangeWrite page.toNat))

/-- ALMANAC_EXCHANGE_CANCEL: a write of 0 (R44). -/
def execAlmanacExchangeCancel (s : State) : Host.Outcome State Fault Refusal :=
  done (s.answered (s.exchangeWrite 0))

/-- PAGE_VALIDATION_DONE: pending, or refused with 0x0103 and its reason (R42). -/
def execPageValidationDone (s : State) : Host.Outcome State Fault Refusal :=
  done (if s.obj 0x2103 3 = 1 then
    match s.pageReason (3 - s.activePage) with
    | none => s.setObj 0x2103 3 2
    | some r => ((s.setObj 0x2103 3 3).setObj 0x2103 4 r).raise 0x0103 deviceWide
  else s)

end Sys2Proof.Machine
end

