-- ==== Sys2Proof/Machine/HostPort.lean ====
section
/-! DEFINITION. The host port: ingest, the buffer pool, frame lists, publish, host rings, link loss, DMA
errors and function-level reset (R337 to R359). -/

namespace Sys2Proof.Machine

/-! ### Host rings (R354, R355) -/

/-- Host ring registers of a queue. -/
def State.ring (s : State) (q : Nat) : HostRing := tget s.host.rings q {}
/-- Store a queue's host ring registers. -/
def State.setRing (s : State) (q : Nat) (v : HostRing) : State :=
  { s with host := { s.host with rings := tset s.host.rings q v {} } }

/-- A ring that Table HP-6 allows: it can hold records (DEDUCED, log 28). -/
def HostRing.usable (r : HostRing) : Bool :=
  decide (r.base.toNat % 4096 = 0) && isPow2 r.size.toNat && decide (4096 ≤ r.size.toNat)
    && decide (r.size.toNat ≤ 2 ^ 24)

/-- Header of a publish record (Table HP-9). -/
def publishHead (stream : Nat) (epoch : Nat) (flags sfmt count rlen : Nat) : List Byte :=
  natLe stream 4 ++ natLe epoch 6 ++ natLe flags 1 ++ natLe sfmt 1 ++ natLe count 2 ++ natLe rlen 2

/-- Bytes of padding before a record of n bytes: it never wraps (R354). -/
def HostRing.pad (r : HostRing) (n : Nat) : Nat :=
  let off := r.widx.toNat % r.size.toNat
  if off + n > r.size.toNat then r.size.toNat - off else 0

/-- Room for a record of n bytes and its padding, never past `RIDX`. -/
def HostRing.room (r : HostRing) (n : Nat) : Bool :=
  r.usable && decide ((r.widx - r.ridx).toNat + r.pad n + n ≤ r.size.toNat)

/-- A write into host memory through T8 (R226). -/
def State.hostWrite (s : State) (addr : W64) (data : List Byte) : State :=
  { s with outputs := { s.outputs with hostWrites := s.outputs.hostWrites ++ [{ addr, data }] } }

/-- Write a record that has room, after its padding, and advance `WIDX` past it (R354). -/
def State.ringWrite (s : State) (q : Nat) (l : List Byte) : State :=
  let r := s.ring q
  let pad := r.pad l.length
  let at1 (w : W32) : W64 := r.base + BitVec.ofNat 64 (w.toNat % r.size.toNat)
  let w := r.widx + BitVec.ofNat 32 pad
  let s := if pad = 0 then s
    else s.hostWrite (at1 r.widx) (publishHead 0 0 4 0 0 pad ++ zeros (pad - 16))
  let s := (s.hostWrite (at1 w) l).setRing q { r with widx := w + BitVec.ofNat 32 l.length }
  s.emit 17 false (s.qWho q) 0x61 (field l 0 4 % 2 ^ 25 + field l 10 1 * 2 ^ 32)

/-- RIDX_WRITE (R355). -/
def State.ridxWrite (s : State) (q : Nat) (t : W32) : State :=
  let r := s.ring q
  let n := t - r.ridx
  if s.qCons q ≠ 7 || n = 0 then s
  else if n.toNat ≤ (r.widx - r.ridx).toNat then s.setRing q { r with ridx := t }
  else s.setRing q { r with rstale := r.rstale + 1 }

/-- A host request to BAR0, BAR2 or BAR4 reaches the SX4: D48 is on, and `PERST_N` does not hold the host port in reset
(R338, R362). -/
def State.hostReaches (s : State) : Bool := s.isOn 48 && !s.power.perstLow

/-- RIDX_WRITE (R355). -/
def execRidxWrite (q : QueueId) (t : W32) (s : State) : Host.Outcome State Fault Refusal :=
  done (if s.hostReaches then s.ridxWrite q t else s)

/-- A host write through a queue's BAR2 page (R112, R341). -/
def execDoorbell (q : QueueId) (offset : Fin 64) (width : Fin 9) (value : W64) (s : State) :
    Host.Outcome State Fault Refusal := done (if s.hostReaches then s.queuePageWrite q offset width value else s)

/-- A write of `HRBASE` or `HRSIZE`: dropped while the queue holds an unended descriptor (R355). -/
def State.ringConfig (s : State) (q : Nat) (r : HostRingReg) (v : W64) : State :=
  if s.qCons q ≠ 7 || decide ((s.queue q).tail ≠ (s.queue q).head) then s
  else
    let k := { s.ring q with widx := 0, ridx := 0 }
    s.setRing q (match r with
      | .base => { k with base := v }
      | .size => { k with size := v })

/-- HOST_RING_CONFIG (R355). -/
def execHostRingConfig (q : QueueId) (r : HostRingReg) (value : W64) (s : State) :
    Host.Outcome State Fault Refusal := done (if s.hostReaches then s.ringConfig q r value else s)

/-! ### Ingest (R343 to R351) -/

/-- Outcomes of a record (Table HP-7). -/
inductive Verdict where
  | accepted
  | late
  | rejected
  deriving DecidableEq, Repr

/-- Code of an outcome in event 0x60. -/
def Verdict.code : Verdict → Nat
  | .accepted => 0
  | .late => 1
  | .rejected => 2

/-- Payload bytes of a frame record. -/
def framePayload (l : List Byte) : Nat := field l 10 2 * formatSize (field l 12 1)

/-- Row 1 of Table HP-7 does not apply. -/
def frameWellFormed (l : List Byte) : Bool :=
  let n := 16 + framePayload l
  decide (field l 0 4 < 2 ^ 25) && decide (field l 13 1 = 0) &&
    decide (1 ≤ field l 12 1) && decide (field l 12 1 ≤ 4) &&
    decide (field l 14 2 = roundUp n 64) && decide (field l 14 2 ≤ 4096) &&
    allZero (slice l n (field l 14 2 - n))

/-- Entries of partition p's frame list for an epoch, once it is set up (R349, R350). -/
def State.listCount (s : State) (p : Nat) (e : BitVec 48) : Nat :=
  if (p, e) ∈ s.host.lists then s.rdNat (memKey 0 (s.listOff p e)) 4 else 0

/-- The cutoff of an epoch on queue q takes effect in this cycle, or should have before it: the Almanac's next entry to
fire is an INGEST_CUTOFF for it (R9). -/
def State.cutDue (s : State) (q ep : Nat) : Bool :=
  match s.nextFiring with
  | some b =>
    let n := b.bits.toNat
    decide (entAction n = 1) && s.takesEffect b && decide (s.almanac.lastFire ≠ some s.cycle) &&
      decide (q ∈ cutoffQueues n) && s.boundFor (entPart n) q 6 && decide (ep ≤ b.epoch.toNat)
  | none => false

/-- Rows 3 to 8 of Table HP-7, with the stream's entry; what they leave is late from the cutoff's cycle on (R9, R346). -/
def State.judgeEntry (s : State) (q : Nat) (l : List Byte) (e : Entry) : Verdict :=
  let ep := field l 4 6
  let opn := (tget s.host.openEpoch q 0).toNat
  if e.life ≠ .banked && e.life ≠ .resident then .rejected
  else if opn < ep then .rejected
  else if ep < opn then .late
  else if (field l 0 4, BitVec.ofNat 48 ep) ∈ s.host.accepted then .rejected
  else if e.look ≠ 0 && decide (framePayload l > e.rsz * 64 - 64) then .rejected
  else if s.listCount (s.qPart q) (BitVec.ofNat 48 ep) ≥ 65535 then .rejected
  else if s.cutDue q ep then .late
  else .accepted

/-- The decision on a record (Table HP-7), or the code of an error response to the table read. -/
def State.judge (s : State) (q : Nat) (l : List Byte) : State × Except Nat Verdict :=
  let id := field l 0 4
  let i := id % 2 ^ 18
  if !frameWellFormed l then (s, .ok .rejected)
  else if id / 2 ^ 18 ≠ s.chip.toNat || !s.inRange (s.qPart q) i then (s, .ok .rejected)
  else if !s.streams.tableSet || s.streams.clearing then (s, .ok .rejected)
  else
    let r := s.mread 13 (s.qWho q) (s.entryAddr i) 32
    match r.2 with
    | .error c => (r.1, .error c)
    | .ok b => (r.1, .ok (r.1.judgeEntry q l (entryOf (leNat b))))

/-- Numbers of free buffers. -/
def State.freeBuffers (s : State) : List Nat :=
  (List.range Config.poolBuffers).filter fun n => s.host.buffers.all fun b => decide (b.number ≠ n)

/-- A free buffer is allocated to a queue and epoch; which one is not stated (DESIGN CHOICE, log 4). -/
def State.takeBuffer (s : State) (q : QueueId) (e : BitVec 48) : State × Option Buffer :=
  let l := s.freeBuffers
  let f := s.fresh
  match l[(Config.freeWord f.2).toNat % l.length]? with
  | none => (s, none)
  | some n =>
    let b : Buffer := { number := n, queue := q, epoch := e, fill := 0 }
    ({ f.1 with host := { f.1.host with buffers := b :: f.1.host.buffers } }, some b)

/-- The buffer that a queue fills for an epoch. -/
def State.currentBuffer (s : State) (q : QueueId) (e : BitVec 48) : Option Buffer :=
  s.host.buffers.find? fun b => decide (b.queue = q) && decide (b.epoch = e)

/-- Several writes of the engine in order, up to the first error response. -/
def State.writeAll (s : State) (m : Nat) (who : BitVec 8) : List (Nat × List Byte) → State × Option Nat
  | [] => (s, none)
  | (a, l) :: r =>
    let w := s.mwrite m who a l
    match w.2.1 with
    | some c => (w.1, some c)
    | none => w.1.writeAll m who r

/-- A ring entry of an accepted frame (R77). -/
def lookEntry (l : List Byte) (rsz : Nat) : List Byte :=
  let h := slice l 4 6 ++ natLe 1 1 ++ zeros 1 ++ slice l 10 2 ++ slice l 12 1 ++ zeros 53
  slice (h ++ slice l 16 (framePayload l)) 0 (rsz * 64)

/-- Write an accepted record into a buffer, its list entry, the count, and its ring entry (R77, R349): the code
of an error response. -/
def State.acceptFrame (s : State) (q : QueueId) (l : List Byte) (b : Buffer) : State × Option Nat :=
  let p := s.qPart q
  let i := field l 0 4 % 2 ^ 18
  let s := s.setUpList p b.epoch
  let off := s.obj 0x3500 1 + b.number * 4096 + b.fill
  let lo := s.listOff p b.epoch
  let n := s.listCount p b.epoch
  let e := s.entry i
  let w := s.writeAll 13 (s.qWho q) ([
    (localAddr 0 off, slice l 0 (field l 14 2)),
    (localAddr 0 (lo + 64 + 16 * n), natLe i 8 ++ natLe (localAddr 0 off) 8),
    (localAddr 0 lo, natLe (n + 1) 4)] ++
    if e.look = 0 then []
    else [(localAddr 0 (e.ring + b.epoch.toNat % (e.look + 2) * (e.rsz * 64)), lookEntry l e.rsz)])
  match w.2 with
  | some c => (w.1, some c)
  | none =>
    let b' := { b with fill := b.fill + field l 14 2 }
    ({ w.1 with host := { w.1.host with
        buffers := w.1.host.buffers.map fun x => if x = b then b' else x,
        accepted := w.1.host.accepted ++ [(field l 0 4, b.epoch)] } }, none)

/-- A late record is reported on the late queue's host ring, if it may be and has room (R351). -/
def State.lateReport (s : State) (q : Nat) (l : List Byte) : State :=
  let k := s.obj 0x3500 2
  let r := publishHead (field l 0 4) (field l 4 6) 2 (field l 12 1) (field l 10 2) 64 ++ zeros 48
  if k < 32 && decide (s.qCons k = 7) && decide (s.qPart k = s.qPart q) && (s.ring k).room 64 && s.host.linkUp && s.isOn 48 then
    s.ringWrite k r
  else s

/-- A decided record is counted once, traced, and the batch goes on after it (R10, R346). -/
def State.settle (s : State) (q : QueueId) (l : List Byte) (span : Nat) (v : Verdict) : State :=
  let h := { s.host with framesReceived := s.host.framesReceived + 1 }
  let s := { s with host := match v with
    | .accepted => { h with framesAccepted := h.framesAccepted + 1 }
    | .late => { h with framesLate := h.framesLate + 1 }
    | .rejected => { h with framesRejected := h.framesRejected + 1 } }
  let s := s.emit 17 false (s.qWho q) 0x60 (field l 0 4 % 2 ^ 25 + v.code * 2 ^ 25)
  let s := if v = .late then s.lateReport q l else s
  s.mapRun q fun r => { r with
    rest := r.rest.drop span, left := r.left - 1, ending := { r.ending with detail := r.ending.detail + 1 } }

/-- The ingest descriptor stops or ends; `DETAIL` gives the records read (R343). -/
def State.ingestEnd (s : State) (q : QueueId) (code : Nat) : State :=
  let s := { s with host := { s.host with waiters := s.host.waiters.filter (· ≠ q.val) } }
  match (s.queue q).run with
  | some r => s.finish q (if code = 0 then 0 else 2) code r.ending.detail.toNat
  | none => s

/-- The buffer for an accepted record: the current one with room, or a new one if no queue waits before this
one; none while the pool is used up (R347). -/
def State.bufferFor (s : State) (q : QueueId) (l : List Byte) (granted : Bool) : State × Option Buffer :=
  let e := BitVec.ofNat 48 (field l 4 6)
  match (s.currentBuffer q e).filter fun b => decide (b.fill + field l 14 2 ≤ 4096) with
  | some b => (s, some b)
  | none => if granted || s.host.waiters.isEmpty then s.takeBuffer q e else (s, none)

/-- Waiting queues in the order in which they asked for a buffer; of those that asked in one cycle the lower-numbered
first (R347). -/
def State.joinWaiters (s : State) (q : Nat) : List Nat → List Nat
  | [] => [q]
  | w :: l =>
    let now := match (s.queue w).run with
      | some r => decide (r.asked = s.cycle)
      | none => false
    if now && decide (q < w) then q :: w :: l else w :: s.joinWaiters q l

/-- The next record of a batch, once its bytes have come: the bytes it spans (R344, Table HP-5); none while host memory
has not delivered them. -/
def Run.record (r : Run) : Option (List Byte) :=
  let rl := field r.rest 14 2
  if r.rest.length < Max.max 16 rl then none else some (slice r.rest 0 (Max.max 64 (roundUp rl 64)))

/-- Decide and place the records of a batch, in order, until it ends, stops, or waits for a buffer or for host memory. A
record that the engine can no longer decide, because the read of its stream's entry met an error response, counts as
rejected and ends the descriptor (R10, R174; DEDUCED, log 87). -/
def State.ingestGo (s : State) (q : QueueId) (granted : Bool) : Nat → State
  | 0 => s
  | n + 1 =>
    match (s.queue q).run with
    | none => s
    | some r =>
      if r.left = 0 then s.ingestEnd q 0
      else match r.record with
        | none =>
          if r.due = 0 then
            (s.raise 0x0402 (s.qWho q) 0 (s.qEntry q r.index.toNat) (q + r.index.toNat * 2 ^ 32) 24).ingestEnd q 0x0402
          else s.mapRun q fun r => { r with phase := .waiting }
        | some l =>
          match s.judge q l with
          | (s, .error c) => (s.settle q l l.length .rejected).ingestEnd q c
          | (s, .ok .accepted) =>
            (match s.bufferFor q l granted with
             | (s, some b) =>
               (match s.acceptFrame q l b with
                | (s, some c) => (s.settle q l l.length .rejected).ingestEnd q c
                | (s, none) => (s.settle q l l.length .accepted).ingestGo q false n)
             | (s, none) =>
               let s := s.mapRun q fun r => { r with phase := .waiting, asked := s.cycle }
               { s with host := { s.host with waiters := s.joinWaiters q s.host.waiters } })
          | (s, .ok v) => (s.settle q l l.length v).ingestGo q false n

/-- Ranges of Table HP-4. -/
def ingestRanges (d : Desc) : Bad := firstBad [
  need (decide (d.f 16 8 % 64 = 0)) 16,
  need (decide (d.f 24 4 % 64 = 0) && decide (64 ≤ d.f 24 4) && decide (d.f 24 4 ≤ 2 ^ 20)) 24,
  need (decide (1 ≤ d.f 28 4)) 28]

/-- Bytes of the batch come from host memory, and the records that are whole are decided. -/
def State.ingestTake (s : State) (q : QueueId) (batch : List Byte) : State :=
  match (s.queue q).run with
  | none => s
  | some r =>
    let l := batch.take r.due
    let s := s.mapRun q fun r => { r with phase := .finished, rest := r.rest ++ l, due := r.due - l.length }
    s.ingestGo q false ((r.rest.length + l.length) / 64 + 2)

/-- Why T8 answers a request to host memory with an error response: it is fenced or off, which the matrix raises (R240,
R362), or the link is not up (R356). -/
def State.hostDenies (s : State) (q : Nat) (wr : Bool) (addr : Nat) : State × Option Nat :=
  if !s.isOn 48 then
    (s.denied { unitRq 13 (s.qWho q) wr with addr, len := 64 } (0x0803, noWindow), some 0x0803)
  else (s, if s.host.linkUp then none else some 0x0D01)

/-- The run of an ingest queue that waits for more of its batch, and not for a buffer. -/
def State.ingestReads (s : State) (q : Nat) : Bool :=
  match s.waitingRun q 0x80 with
  | some r => decide (0 < r.due) && decide (q ∉ s.host.waiters)
  | none => false

/-- INGEST: `batch` is what host memory holds at `HADDR`, or as much of it as has been read so far; a further INGEST of the
queue brings what follows (R346, R356; DEDUCED, log 87). -/
def execIngest (q : QueueId) (batch : List Byte) (s : State) : Host.Outcome State Fault Refusal :=
  done (if s.ingestReads q then s.ingestTake q batch
  else s.serve q (fun d => d.opc = 0x80) (fun _ d => ingestRanges d) (fun t d =>
    match t.hostDenies q false (d.f 16 8) with
    | (t, some c) => t.finishFault q c 0
    | (t, none) => (t.mapRun q fun r => { r with left := d.f 28 4, due := d.f 24 4 }).ingestTake q batch))

/-- BUFFER_GRANT: the queue that asked first gets a returned buffer; its record is judged as it is written
(R347). -/
def execBufferGrant (q : QueueId) (s : State) : Host.Outcome State Fault Refusal :=
  done (if s.host.waiters.head? = some q.val && !s.freeBuffers.isEmpty then
    let s := { s with host := { s.host with waiters := s.host.waiters.tail } }
    match (s.queue q).run with
    | some r => (s.mapRun q fun r => { r with phase := .finished }).ingestGo q true (r.rest.length / 64 + 2)
    | none => s
  else s)

/-! ### Publish (R352 to R354) -/

/-- Order of a score among the scores of a row: a NaN ranks below every number (R353). -/
def scoreKey (sfmt v : Nat) : Int :=
  if sfmt = 2 then signedOf 16 v
  else if sfmt = 3 then signedOf 32 v
  else
    let m : Nat := v % 2 ^ 31
    if m > 0x7F800000 then -(2 ^ 32) else if v ≥ 2 ^ 31 then -(m : Int) else m

/-- The classes of a row by descending score, the lower class first among equals (R353). -/
def ranked (sfmt ncls : Nat) (row : List Byte) : List Nat :=
  let z := formatSize sfmt
  (List.range ncls).insertionSort fun a b =>
    scoreKey sfmt (field row (a * z) z) ≥ scoreKey sfmt (field row (b * z) z)

/-- A score as a top-k record gives it: an A16 score sign-extended (R353). -/
def scoreWord (sfmt v : Nat) : Nat := if sfmt = 2 then (BitVec.ofInt 32 (signedOf 16 v)).toNat else v

/-- The scores of a record: entries counted, and the bytes (Table HP-9). -/
def scoreBody (d : Desc) (row : List Byte) : Nat × List Byte :=
  let ncls := d.f 18 2
  let sfmt := d.f 20 1
  let z := formatSize sfmt
  if d.f 16 1 = 1 then (ncls, slice row 0 (ncls * z))
  else (d.f 17 1, ((ranked sfmt ncls row).take (d.f 17 1)).flatMap fun c =>
    natLe c 4 ++ natLe (scoreWord sfmt (field row (c * z) z)) 4)

/-- A read of the Ingest/Publish engine. -/
def State.pubRead (s : State) (q addr len : Nat) : State × Except Nat (List Byte) :=
  s.mread 13 (s.qWho q) addr len

/-- Whether a stream's scores of the current epoch are committed: Resident in the queue's partition, `CEPOCH` the
current epoch, not in doubt (R352). -/
def State.committedNow (s : State) (p : Nat) (i : Nat) (e : Entry) : Bool :=
  let h := s.header p e.slot
  s.inRange p i && decide (e.life = .resident) && decide (e.part = p) && decide (h.cepoch = s.epoch.toNat)
    && !(h.bound && (s.step1 p).judged.isSome)

/-- The record of row r with stream i, or the code of an error response (R352). -/
def State.publishRow (s : State) (q : Nat) (d : Desc) (r i : Nat) : State × Except Nat (List Byte) :=
  let p := s.qPart q
  let topk := if d.f 16 1 = 0 then 8 else 0
  let sfmt := d.f 20 1
  let z := formatSize sfmt
  let a := s.pubRead q (s.entryAddr i) 32
  match a.2 with
  | .error c => (a.1, .error c)
  | .ok b =>
    let e := entryOf (leNat b)
    let s := a.1
    let ep := (s.epoch - BitVec.ofNat 48 e.look).toNat
    let id := s.chip.toNat * 2 ^ 18 + i
    if !s.committedNow p i e then
      (s, .ok (publishHead id ep (1 + topk) sfmt 0 64 ++ zeros 48))
    else
      let row := s.pubRead q (d.f 24 8 + r * roundUp (d.f 18 2 * z) 64) (d.f 18 2 * z)
      match row.2 with
      | .error c => (row.1, .error c)
      | .ok l =>
        let body := scoreBody d l
        let n := roundUp (16 + body.2.length) 64
        (row.1, .ok (slice (publishHead id ep topk sfmt body.1 n ++ body.2) 0 n))

/-- The records of the valid rows, up to the first error response. -/
def State.publishRows (s : State) (q : Nat) (d : Desc) : List (Nat × Nat) → List (List Byte) →
    State × List (List Byte) × Option Nat
  | [], acc => (s, acc, none)
  | (r, i) :: rest, acc =>
    match s.publishRow q d r i with
    | (s, .error c) => (s, acc, some c)
    | (s, .ok l) => s.publishRows q d rest (acc ++ [l])

/-- Write waiting records while the ring has room; the descriptor is over when none is left, stops when the
link is down, and otherwise waits (R354, R356). -/
def State.flushRecords (s : State) (q : Nat) (code : Nat) : Nat → State
  | 0 => s
  | n + 1 =>
    match (s.queue q).run with
    | none => s
    | some r =>
      match r.records with
      | [] => s.finish q (if code = 0 then 0 else 2) code 0
      | l :: rest =>
        if !(s.ring q).room l.length then
          s.mapRun q fun r => { r with phase := .waiting, ending := { r.ending with code := BitVec.ofNat 16 code } }
        else match s.hostDenies q true ((s.ring q).base.toNat + (s.ring q).widx.toNat % (s.ring q).size.toNat) with
        | (s, some c) => (s.mapRun q fun r => { r with records := [] }).finishFault q c 0
        | (s, none) => ((s.ringWrite q l).mapRun q fun r => { r with records := rest }).flushRecords q code n

/-- Ranges of PUBLISH (Table QD-10, R353). -/
def publishRanges (d : Desc) : Bad := firstBad [
  need (decide (d.f 16 1 ≤ 1)) 16,
  need (decide (d.f 16 1 = 1) || (decide (1 ≤ d.f 17 1) && decide (d.f 17 1 ≤ d.f 18 2))) 17,
  need (decide (1 ≤ d.f 18 2) && decide (d.f 18 2 ≤ 4096)) 18,
  need (decide (2 ≤ d.f 20 1) && decide (d.f 20 1 ≤ 4)) 20,
  need (decide (1 ≤ d.f 21 1) && decide (d.f 21 1 ≤ 128)) 21,
  need (decide (d.f 32 8 % 64 = 0)) 32]

/-- PUBLISH. -/
def execPublish (q : QueueId) (s : State) : Host.Outcome State Fault Refusal :=
  done (s.serve q (fun d => d.opc = 0x60) (fun _ d => publishRanges d) (fun t d =>
    let l := t.pubRead q (d.f 32 8) (4 * d.f 21 1)
    match l.2 with
    | .error c => l.1.finishFault q c 0
    | .ok b =>
      let rows := ((List.zip (List.range (d.f 21 1)) (rowIndices b (d.f 21 1)))).filterMap fun e =>
        e.2.map fun i => (e.1, i)
      let p := l.1.publishRows q d rows []
      (p.1.mapRun q fun r => { r with records := p.2.1 }).flushRecords q (p.2.2.getD 0) (rows.length + 1)))

/-- HOST_RING_WRITE: the waiting records that now have room are written (R354). -/
def execHostRingWrite (q : QueueId) (s : State) : Host.Outcome State Fault Refusal :=
  done (match s.waitingRun q 0x60 with
  | some r => s.flushRecords q r.ending.code.toNat (r.records.length + 1)
  | none => s)

/-! ### The link, DMA errors, resets (R338, R356 to R358) -/

/-- Stop the ingest descriptors whose batch is still being read (R356). -/
def State.stopIngest (s : State) (code : Nat) : State :=
  (List.finRange 32).foldl (fun (s : State) (q : QueueId) => match s.waitingRun q.val 0x80 with
    | some _ => s.ingestEnd q code
    | none => s) s

/-- The link is no longer up: objects 0x3500:03 and :04. -/
def State.linkOff (s : State) : State :=
  (({ s with host := { s.host with linkUp := false } }.setObj 0x3500 3 0).setObj 0x3500 4 0).stopIngest 0x0D01

/-- PCIE_LINK_DOWN: a power-management transition is no loss (R356). -/
def execPcieLinkDown (cause : LinkLoss) (s : State) : Host.Outcome State Fault Refusal :=
  done (match cause with
  | .failure => if s.host.linkUp then (s.linkOff).raise 0x0D01 deviceWide else s
  | .powerManagement => s)

/-- PCIE_LINK_UP: training ends in L0. -/
def execPcieLinkUp (width speed : BitVec 4) (s : State) : Host.Outcome State Fault Refusal :=
  done ((({ s with host := { s.host with linkUp := true }, power := { s.power with perstLow := false } }.setObj
    0x3500 3 2).setObj 0x3500 4 (width.toNat * 16 + speed.toNat)))

/-- A request of the mailbox is answered to nobody once the mailbox has been reset (R358). -/
def Held.orphaned (h : Held) (chip : BitVec 7) : Held :=
  if h.key.transport = .mailbox && decide (h.key.chip = chip) then { h with discard := true } else h

/-- What a reset of the host port resets: BAR0's registers, the MSI-X table, the mailbox, the configuration space (R358). -/
def State.resetHostPort (s : State) : State :=
  let gone (l : List Held) : List Held := l.map fun h => h.orphaned s.chip
  { s with
    host := { s.host with bar4 := 0, msixTable := [], msixPending := 0, msixEnable := false, functionMask := false,
                          aer := 0 },
    kpp := { s.kpp with mailboxRequest := [], mailboxResponse := [], respValid := false, rtxn := 0,
                        forwards := gone s.kpp.forwards, waiting := gone s.kpp.waiting,
                        deferred := s.kpp.deferred.map fun h => h.orphaned s.chip } }

/-- PERST_N low (R338, R356). -/
def execPerstN (s : State) : Host.Outcome State Fault Refusal :=
  let run := decide (s.power.dev = .run)
  let s := { (s.linkOff).resetHostPort with power := { s.power with perstLow := true } }
  done (if run then s.raise 0x0D01 deviceWide else s)

/-- FUNCTION_LEVEL_RESET (R358): outstanding requests of M13 get 0x0D01, which is not raised. -/
def execFunctionLevelReset (s : State) : Host.Outcome State Fault Refusal :=
  done ((s.stopIngest 0x0D01).resetHostPort)

/-- 0x0D02 for queue q's request at a host address (R359). -/
def State.dmaFault (s : State) (q addr : Nat) : State := s.raise 0x0D02 (s.qWho q) q addr

/-- AER's record of a host completion with an error: a poisoned TLP or a completion timeout (R337; PRESUMED, log 147). -/
def State.aerNote (s : State) (e : HostError) : State :=
  let b : W32 := match e with
    | .poisoned => 0x1000
    | .timeout => 0x4000
    | _ => 0
  { s with host := { s.host with aer := s.host.aer ||| b } }

/-- HOST_DMA_ERROR: the ingest descriptor that reads, or is about to read, its batch stops (R357); so does a
publish descriptor with records still to write. -/
def execHostDmaError (q : QueueId) (e : HostError) (s : State) : Host.Outcome State Fault Refusal :=
  let s := s.aerNote e
  done (match s.waitingRun q 0x80, s.waitingRun q 0x60 with
  | some r, _ =>
    let d := s.readDesc q r.index
    (s.dmaFault q (d.f 16 8 + (d.f 24 4 - if r.due = 0 then r.rest.length else r.due))).ingestEnd q 0x0D02
  | none, some r =>
    let k := s.ring q
    ((s.dmaFault q (k.base.toNat + k.widx.toNat % k.size.toNat)).mapRun q
      fun x => { x with records := [] }).finishFault q 0x0D02 (r.ending.detail.toNat)
  | none, none => s.serve q (fun d => d.opc = 0x80) (fun _ d => ingestRanges d) (fun t d =>
      (t.dmaFault q (d.f 16 8)).finishFault q 0x0D02 0))

end Sys2Proof.Machine
end

