-- ==== Sys2Proof/Machine/Matrix.lean ====
section
/-! DEFINITION. Requests at the matrix's target ports: arbitration, grants, remote requests, responses; BAR4;
windows, slices, write-back and training (R223 to R251, R290, R291, R340). -/

namespace Sys2Proof.Machine

/-! ### Atomics (R96) -/

/-- The value an atomic writes, for its size in bytes: add, swap, compare and swap (Table TD-7). -/
def atomicNew (op : AtomicOp) (size old operand compare : Nat) : Nat :=
  let m := 2 ^ (8 * size)
  match op with
  | .add => (old + operand) % m
  | .swap => operand % m
  | .cas => if old = compare % m then operand % m else old

/-- Regions whose port executes atomics (R96). -/
def atomicRegion (region : Nat) : Bool := region = 0 || (4 ≤ region && region < 8) || (20 ≤ region && region < 24)

/-- An atomic at its target; at a region without atomics it is no request of the port (DEDUCED, log 29). -/
def State.serveAtomic (s : State) (r : Rq) (op : AtomicOp) (operand compare : W64) : State × Reply :=
  match s.resolve r with
  | .error d => (s.denied r d, .error (BitVec.ofNat 16 d.1))
  | .ok (.mem k) =>
    if !atomicRegion (k / 2 ^ 48) then (s.denied r (0x0801, noWindow), .error 0x0801)
    else
      let f := s.fetchKey r k
      (match f.2 with
       | .error c => (f.1, .error (BitVec.ofNat 16 c))
       | .ok l =>
         (f.1.storeKey r k (natLe (atomicNew op r.len (leNat l) operand.toNat compare.toNat) r.len), .data l))
  | .ok (.reg o) =>
    let c := if regOk o r.len then 0x0802 else 0x0801
    (s.regDenied r o c, .error (BitVec.ofNat 16 c))
  | .ok (.remote _) => (s, .error 0x0801)

/-- A request executed at its target on this SX4. -/
def State.serveOp (s : State) (r : Rq) (op : Op) : State × Reply :=
  match op with
  | .read =>
    let a := s.readPieces { r with rd := true, wr := false } [] (r.len / 64 + 2) r.addr r.len
    (match a.2 with
     | .ok l => (a.1, .data l)
     | .error c => (a.1, .error (BitVec.ofNat 16 c)))
  | .write data =>
    let a := s.writePieces { r with rd := false, wr := true } 0 (data.length / 64 + 2) r.addr data
    (match a.2.1 with
     | none => (a.1, .data [])
     | some c => (a.1, .error (BitVec.ofNat 16 c)))
  | .atomic o x y => s.serveAtomic { r with rd := true, wr := true } o x y

/-! ### Issue -/

/-- The extra cycle of a request on its path, if the path carries a register slice (R241). -/
def State.sliceDelay (s : State) (m t : Nat) : Nat := bit (s.obj 0x3200 0x5B) (10 * m + t)

/-- No request waits at a port, and its last grant has ended (R237). -/
def State.portIdle (s : State) (p : TargetPort) : Bool :=
  (s.matrix.requests.all fun x => decide (x.port ≠ p) || x.held) && decide (tget s.matrix.busy (portKey p) 0 ≤ s.cycle)

/-- A request reaches its port from cycle t on: a slice delays it by one cycle, and an idle port grants it in the cycle it
arrives if it has parked on its master, else in the cycle after (R237, R241). -/
def State.reach (s : State) (r : Request) : Request :=
  let at' := s.cycle + s.sliceDelay r.master r.port.target
  let parked := decide (s.obj 0x3200 (0x50 + r.port.target.val) = r.master.val)
  { r with held := false, arrived := at', ready := at' + b2n (s.portIdle r.port && !parked) }

/-- An earlier request of the same master and ID to another target is outstanding: it waits, it has gone out through T7, or
its response has not returned (R238). -/
def State.heldBack (s : State) (r : Request) : Bool :=
  (s.matrix.requests.any fun x => decide (x.id < r.id) && decide (x.master = r.master) && decide (x.tid = r.tid) &&
    decide (x.port.target ≠ r.port.target)) ||
  (s.matrix.responses.any fun x => decide (x.id < r.id) && decide (x.origin = r.origin) &&
    decide (x.target ≠ r.port.target.val)) ||
  (decide (r.port.target ≠ 7) && s.remote.any fun x => match x.use with
    | .request _ o => decide (o = r.origin)
    | _ => false)

/-- Put a request before its target port, or hold it back at its master (R238); its identifier. -/
def State.issue (s : State) (m : Master) (tid : Nat) (p : Part) (addr : W64) (len : Nat) (op : Op) (o : Origin)
    (cont : Bool := false) : State × Nat :=
  let x := s.matrix
  let r : Request := {
    id := x.nextId, master := m, tid, part := p, port := s.portOf m addr.toNat, addr, len, op,
    qos := s.obj 0x3200 (0x42 + m.val), arrived := s.cycle, origin := o, cont }
  let r := if s.heldBack r then { r with held := true } else s.reach r
  ({ s with matrix := { x with requests := x.requests ++ [r], nextId := x.nextId + 1 } }, x.nextId)

/-- Requests that nothing holds back any more reach their ports (R238). -/
def State.reachPorts (s : State) : State :=
  { s with matrix := { s.matrix with
      requests := s.matrix.requests.map fun r => if r.held && !s.heldBack r then s.reach r else r } }

/-- A domain takes responses: it is on, or not yet drained (R364). -/
def State.takesResponses (s : State) (d : Nat) : Bool :=
  match s.domain d with
  | .on => true
  | .draining _ => true
  | _ => false

/-- The response of a request goes to its requester: a thread takes it by ACCESS_RESPONSE, the host at once; with
D48 off it is absorbed and counted (R364). -/
def State.respond (s : State) (id : Nat) (o : Origin) (r : Reply) (target : Nat := 7) : State :=
  match o with
  | .host =>
    if s.takesResponses 48 then
      { s with outputs := { s.outputs with hostReplies := s.outputs.hostReplies ++ [r] } }
    else s.bump 0x2204 49
  | .thread _ => { s with matrix := { s.matrix with
      responses := s.matrix.responses ++ [{ id, origin := o, target, reply := r }] } }

/-! ### Arbitration (R235 to R239, R291) -/

/-- A request may be granted in this slot (R291). -/
def State.slotAllows (s : State) (r : Request) : Bool := s.slotOk r.part s.cycle (beats r.addr.toNat r.len)

/-- Flits of the response to a request: what its master must have reserved at the far side's answer (R239). -/
def Request.answerFlits (r : Request) : Nat :=
  match r.op with
  | .read => (16 + r.len + 127) / 128
  | _ => 1

/-- A Trellis response credit is free for a request through T7: the responses awaited on its port, and its own, fit into
the port's VC1 receive buffer (R239; what a credit counts is DEDUCED, log 141). -/
def State.responseCredit (s : State) (r : Request) : Bool :=
  match s.routePort (BitVec.ofNat 7 (bits r.addr.toNat 59 53)) with
  | none => true
  | some l => decide (((s.remote.filter fun x => decide (x.port = l)).map (·.flits)).sum + r.answerFlits ≤ vcSize 1)

/-- The matrix admits a request: it stands at its port and no earlier request of the same master and ID waits; one to T7
has its response credit (R238, R239). -/
def State.admits (s : State) (r : Request) : Bool :=
  !r.held && (s.matrix.requests.all fun x =>
    decide (r.id ≤ x.id) || decide (x.master ≠ r.master) || decide (x.tid ≠ r.tid)) &&
  (decide (r.port.target ≠ 7) || s.responseCredit r)

/-- Effective QoS (R235). -/
def State.effQos (s : State) (r : Request) : Nat := Min.min 15 (r.qos + (s.cycle - r.arrived) / 256)

/-- Places of a master after the last one granted at a port (R235). -/
def State.afterLast (s : State) (p : TargetPort) (m : Nat) : Nat :=
  (m + 13 - tget s.matrix.lastGrant (portKey p) 13) % 14

/-- A bed's store to the alert post register (R315). -/
def Request.isAlert (r : Request) : Bool :=
  decide (r.master.val < 4) && decide (bits r.addr.toNat 52 0 = memKey 3 0x00150000) && (match r.op with
    | .write _ => true
    | _ => false)

/-- Of two requests the one that the port grants before the other (R235). -/
def State.before (s : State) (p : TargetPort) (a b : Request) : Bool :=
  if s.effQos a ≠ s.effQos b then decide (s.effQos b < s.effQos a)
  else if a.master ≠ b.master then decide (s.afterLast p a.master < s.afterLast p b.master)
  else decide (a.id < b.id)

/-- The requests that a port may grant now. -/
def State.candidates (s : State) (p : TargetPort) : List Request :=
  s.matrix.requests.filter fun r => decide (r.port = p) && s.admits r && decide (r.ready ≤ s.cycle) && s.slotAllows r

/-- Of two alert stores that came in one cycle, that of the lower bed (R315). -/
def Request.lowerBed (r x : Request) : Request :=
  if x.isAlert && r.isAlert && decide (x.arrived = r.arrived) && decide (x.master < r.master) then x else r

/-- The request that a port grants next: the first by R235; alert stores of several beds that came in one cycle are
granted in ascending bed order (R315). -/
def State.winner (s : State) (p : TargetPort) : Option Request :=
  let l := s.candidates p
  (l.foldl (fun w r => match w with
      | none => some r
      | some x => if s.before p r x then some r else some x) none).map fun r => l.foldl Request.lowerBed r

/-! ### Remote requests (R256, R264) -/

/-- A granted request goes out through T7. -/
def State.grantRemote (s : State) (r : Request) : State :=
  let chip := BitVec.ofNat 7 (bits r.addr.toNat 59 53)
  let mk (t : BitVec 16) := s.packetOf chip r.part r.qos t r.addr r.len r.op
  match s.sendRemote r.part r.addr mk (.request r.id r.origin) r.answerFlits with
  | (s, true) => s
  | (s, false) => s.respond r.id r.origin (.error 0x0A01)

/-! ### Grants -/

/-- The matrix's view of a request. -/
def Request.rq (r : Request) : Rq :=
  { master := r.master, who := partByte r.part, id := r.tid, addr := r.addr.toNat, len := r.len, rd := true, wr := true }

/-- Serve a request that was admitted before its target's fence as if the fence did not stand (R240). -/
def State.serveAdmitted (s : State) (r : Request) : State × Reply :=
  if r.admitted then
    let all := s.power.domains
    let open' := all.filter fun e => match e.2 with
      | .draining _ => false
      | _ => true
    let a := { s with power := { s.power with domains := open' } }.serveOp r.rq r.op
    ({ a.1 with power := { a.1.power with domains := all } }, a.2)
  else s.serveOp r.rq r.op

/-- A request leaves its port, which is taken for its beats: the next piece of its burst reaches the port now (R236). -/
def State.takeRequest' (s : State) (r : Request) : State :=
  let rest := s.matrix.requests.filter fun x => decide (x.id ≠ r.id)
  let next := rest.find? fun x => decide (x.master = r.master) && decide (x.tid = r.tid)
  let rest := rest.map fun x => if x.cont && decide (next = some x) then { x with arrived := s.cycle } else x
  { s with matrix := { s.matrix with requests := rest } }.portTaken r.port r.master.val (beats r.addr.toNat r.len)

/-- The port grants a request, and it takes effect; what waited behind it at its master goes on. -/
def State.grant (s : State) (r : Request) : State :=
  let s := s.takeRequest' r
  (if r.port.target = 7 then s.grantRemote r
   else
    let a := s.serveAdmitted r
    a.1.respond r.id r.origin a.2 r.port.target.val).reachPorts

/-- The next arbitration of a port: after the last beat it granted, and once one of the requests at it may be granted
(R236, R237). Time goes on to it. -/
def State.atPort (s : State) (p : TargetPort) : State :=
  match (s.matrix.requests.filter fun r => decide (r.port = p) && s.admits r).map (·.ready) with
  | [] => s
  | t :: ts => s.advance (Max.max (tget s.matrix.busy (portKey p) 0) (ts.foldl Min.min t))

/-- PORT_GRANT: the port grants the request that R235 names, if one may be granted. -/
def execPortGrant (port : TargetPort) (s : State) : Host.Outcome State Fault Refusal :=
  let s := s.atPort port
  done (match s.winner port with
  | some r => s.grant r
  | none => s)

/-! ### BAR4 (R340) -/

/-- Issue the pieces of a host access: a transaction carries at most 256 beats, 16 pieces (R236). -/
def State.issueHost (s : State) (p : Part) (base : Nat) (a : HostAccess) (n : Nat) : List (Nat × Nat) → State
  | [] => s
  | (addr, len) :: r =>
    let op : Op := match a with
      | .read _ => .read
      | .write d => .write ((d.drop (addr - base)).take len)
    ((s.issue 10 (Config.unitId 10).toNat p (BitVec.ofNat 64 addr) len op .host (decide (n % 16 ≠ 0))).1).issueHost
      p base a (n + 1) r

/-- BAR4_ACCESS: a request of M10 for the window's partition; all ones and nothing while the window is
disabled. -/
def State.bar4Access (s : State) (off : W32) (a : HostAccess) : State :=
  let w := s.host.bar4.toNat
  let addr := bits w 60 32 * 2 ^ 32 + off.toNat
  if !w.testBit 7 then
    match a with
    | .read n => s.respond 0 .host (.data (List.replicate n 0xFF))
    | .write _ => s
  else
    let len := match a with
      | .read n => n
      | .write d => d.length
    s.issueHost ⟨w % 8, by omega⟩ addr a 0 (pieces (len / 1024 + 2) addr len)

/-- BAR4_ACCESS (R340); with D48 off its master M10 issues nothing (R362). -/
def execBar4Access (off : W32) (a : HostAccess) (s : State) : Host.Outcome State Fault Refusal :=
  done (if s.hostReaches then s.bar4Access off a else s)

/-! ### Register writes with rows of their own -/

/-- PART byte of a register write that a row gives no partition: the Keeper's is device-wide, any other carries
P0 (DEDUCED, log 31). -/
def masterWho (m : Master) : BitVec 8 := if m.val = 11 then deviceWide else 0

/-- A write of register space by a master, as the matrix judges it: the code of an error response. -/
def State.spaceWrite (s : State) (m : Nat) (who : BitVec 8) (off : Nat) (data : List Byte) : State × Option Nat :=
  s.writePiece { unitRq m who true with addr := localAddr 3 off, len := data.length } data

/-- WINDOW_WRITE: window w through register space (R228, R232, R233). -/
def execWindowWrite (m : Master) (w : Fin 64) (off : Fin 32) (bytes : List Byte) (s : State) :
    Host.Outcome State Fault Refusal :=
  done (s.spaceWrite m (masterWho m) (0x00120000 + 32 * w + off) (bytes.take (32 - off))).1

/-- Dictionary write of object 0x3200:5B (R241). -/
def State.slicesObject (s : State) (l : List Byte) : State × Nat :=
  if l.length ≠ 18 then (s, 0x05)
  else if decide (s.power.dev = .config) && s.busyMasters.isEmpty then
    (s.setObj 0x3200 0x5B (leNat l % 2 ^ 140), 0)
  else (s, 0x09)

/-- REGISTER_SLICES_WRITE, through the dictionary or register space (R241). -/
def execRegisterSlicesWrite (viaDictionary : Bool) (m : Master) (off : Fin 18) (bytes : List Byte) (s : State) :
    Host.Outcome State Fault Refusal :=
  done (if viaDictionary then s.answered (s.slicesObject bytes)
  else (s.spaceWrite m (masterWho m) (0x00121020 + off) (bytes.take (18 - off))).1)

/-- CACHE_WRITE_BACK_START: a write of offset 0x0013_0000 (R244). -/
def execCacheWriteBackStart (s : State) : Host.Outcome State Fault Refusal := done s.startWriteBack

/-- CACHE_WRITE_BACK_DONE: the dirty lines are written back and stay valid, but for lines dirtied behind it (R244). -/
def execCacheWriteBackDone (s : State) : Host.Outcome State Fault Refusal :=
  done (if s.matrix.writeBack then
    let s := s.cacheSwept
    { s with matrix := { s.matrix with writeBack := false } }
  else s)

/-! ### Training (R250, R361) -/

/-- Populated subchannels 4c + s of the channel mask. -/
def State.populated (s : State) : List Nat := (List.range 16).filter fun i => (s.obj 0x3400 1).testBit (i / 4)

/-- Training of the populated subchannels ends with these passes (R250); with two channels D45 is off from then on
(R361). -/
def State.training (s : State) (pass : Nat) : State :=
  let sub := s.populated
  let good := sub.filter fun i => pass.testBit i
  let s := s.setObj 0x3400 4 ((good.map fun i => 2 ^ i).sum)
  let f := s.fresh
  let s : State := { f.1 with power := { f.1.power with training := good.map fun i => (i, Config.trainingValue f.2 i) } }
  let s := if s.obj 0x3400 1 = 3 then (s.setDomain 45 .off).setObj 0x2200 46 0 else s
  if good = sub then s.setObj 0x3400 5 (sub.length * s.obj 0x3400 3 * 2 ^ 27)
  else
    (sub.filter fun i => !(pass.testBit i)).foldl (fun s i => s.raise 0x0903 deviceWide i) (s.setObj 0x3400 5 0)

/-- DRAM_TRAINING, while the firmware configures the SX4 (R382). -/
def execDramTraining (pass : BitVec 16) (s : State) : Host.Outcome State Fault Refusal :=
  done (if s.power.dev = .config then s.training pass.toNat else s)

end Sys2Proof.Machine
end

