-- ==== Sys2Proof/Machine/Threads.lean ====
section
/-! DEFINITION. What every Danto instruction shares: the choice of the issuing context, waits for results,
register reads and writes, faults of a thread (R79 to R84, R92, R98, R105). -/

namespace Sys2Proof.Machine

/-- A 64-bit instruction word (Table TD-5). -/
def dantoWord (op : Nat) (d a b : Reg) (i : Imm) : Nat :=
  op * 2 ^ 56 + d.toNat * 2 ^ 51 + a.toNat * 2 ^ 46 + b.toNat * 2 ^ 41 + i.toNat

/-- The immediate, sign-extended to 64 bits (Table TD-5). -/
def immVal (i : Imm) : W64 := i.signExtend 64

/-- Bytes of a bed's Thread Store (Table TD-10). -/
def threadStoreSize : Nat := 2 ^ 18

/-- A scalar register; s0 reads zero (R84). -/
def Context.reg (c : Context) (r : Reg) : W64 := if r = 0 then 0 else tget c.regs r.toNat 0

/-- The register an outstanding access will write. -/
def AccessKind.dst : AccessKind → Reg
  | .load d _ => d
  | .store => 0
  | .atomic d => d

/-- An access whose result no longer reaches register d. -/
def AccessKind.drop (k : AccessKind) (d : Reg) : AccessKind :=
  match k with
  | .load x g => if x = d then .load 0 g else k
  | .store => k
  | .atomic x => if x = d then .atomic 0 else k

/-- A later write of register d takes the place of results still on their way to it (R82, DEDUCED, log 32). -/
def Context.supersede (c : Context) (d : Reg) : Context :=
  { c with outstanding := c.outstanding.map fun o => { o with kind := o.kind.drop d } }

/-- Write a scalar register; a write to s0 is discarded (R84). -/
def Context.setReg (c : Context) (d : Reg) (v : W64) : Context :=
  if d = 0 then c else { c.supersede d with regs := tset c.regs d.toNat v 0 }

/-- The registers among rs whose results have not arrived (R82). -/
def Context.awaited (c : Context) (rs : List Reg) : List Reg :=
  rs.filter fun r => decide (r ≠ 0) && c.outstanding.any fun o => decide (o.kind.dst = r)

/-- Threads issue in this device state (Table PW-3, R370, R372, R379). -/
def State.threadsIssue (s : State) : Bool :=
  (decide (s.power.dev = .config) || decide (s.power.dev = .ready) || decide (s.power.dev = .run)) &&
    decide (s.power.rest = .none)

/-- Domain of a bed controller. -/
def bedDomain (b : Nat) : Nat := 2 + 9 * b

/-- The context of a bed that issues next: the first READY one after the last that issued (R81). A context acts only for its
owner, so one that no partition owns does not issue (R284; DEDUCED, log 8). -/
def State.chosen (s : State) (b : Nat) : Option Nat :=
  ((List.range 64).map fun i => (tget s.lastIssue b 63 + 1 + i) % 64).find? fun k =>
    decide ((s.context (64 * b + k)).state = .ready) && (s.owner 2 (64 * b + k)).isSome

/-- It is this context's turn to issue (R80, R81). -/
def State.issues (s : State) (th : Thread) : Bool :=
  s.threadsIssue && s.isOn (bedDomain th.bed) && decide (s.chosen th.bed = some th.ctx.val)

/-- Partition byte of a context. -/
def State.thWho (s : State) (n : Nat) : BitVec 8 := partByte (s.contextPart n)

/-- A context goes to WAIT (Table TD-1, Table TF-3). -/
def State.waitFor (s : State) (n op : Nat) (c : Context) (w : WaitKind) : State :=
  (s.setContext n { c with state := .wait, wait := w, waitOp := BitVec.ofNat 8 op }).emit (n / 64) false (s.thWho n)
    0x05 (s.threadId n + op * 2 ^ 16)

/-- A context stops in FAULTED with a code; its registers stay (Table TD-1). -/
def State.stopThread (s : State) (n code : Nat) : State :=
  (s.setContext n { s.context n with state := .faulted, wait := .none }).emit (n / 64) false (s.thWho n) 0x02
    (s.threadId n + code * 2 ^ 16)

/-- A fault of the bed controller: bed, program counter, thread ID, instruction (R105). -/
def State.threadRaise (s : State) (n code word : Nat) : State :=
  s.raise code (s.thWho n) (n / 64) (s.context n).pc.toNat (s.threadId n) word

/-- A fault that stops the thread. -/
def State.threadFault (s : State) (n code word : Nat) : State := (s.threadRaise n code word).stopThread n code

/-- The instruction is done: the context with its registers, the program counter past it. -/
def State.retire (s : State) (n : Nat) (c : Context) : State := s.setContext n { c with pc := c.pc + 8 }

/-- Issue an instruction on a context whose turn it is; one that reads a result still on its way puts the
context in WAIT (R81, R82). -/
def State.issueOn (s : State) (th : Thread) (op : Nat) (srcs : List Reg) (f : State → Nat → Context → State) : State :=
  if !s.issues th then s
  else
    let n := Thread.num th
    let s := { s with lastIssue := tset s.lastIssue th.bed th.ctx 63 }
    let c := s.context n
    let pend := c.awaited srcs
    if pend.isEmpty then f s n c else s.waitFor n op c (.regs pend)

/-- An instruction that writes d with a value of two registers. -/
def State.runAB (s : State) (th : Thread) (op : Nat) (d a b : Reg) (v : W64 → W64 → W64) : State :=
  s.issueOn th op [a, b] fun s n c => s.retire n (c.setReg d (v (c.reg a) (c.reg b)))

/-- An instruction that writes d with a value of a register and the immediate. -/
def State.runAI (s : State) (th : Thread) (op : Nat) (d a : Reg) (i : Imm) (v : W64 → W64 → W64) : State :=
  s.issueOn th op [a] fun s n c => s.retire n (c.setReg d (v (c.reg a) (immVal i)))

/-- A thread starts in a context (R84, R100). -/
def State.startThread (s : State) (n : Nat) (pc : W64) (c : Context) : State :=
  (s.setContext n { c with state := .ready, pc := pc }).emit (n / 64) false (s.thWho n) 0x01
    (s.threadId n + pc.toNat % 2 ^ 32 * 2 ^ 32)

/-- A branch target or start address of a thread: a multiple of 8 below 256 KiB (R95, R100). -/
def pcOk (pc : W64) : Bool := decide (pc.toNat % 8 = 0) && decide (pc.toNat < threadStoreSize)

end Sys2Proof.Machine
end

