-- ==== Sys2Proof/Machine/Alu.lean ====
section
/-! DEFINITION. Danto's integer ALU instructions (Table TD-7, R94): 64-bit arithmetic that wraps, shift amounts
modulo 64, the immediate sign-extended. -/

namespace Sys2Proof.Machine

/-- a << b[5:0]. -/
def shlVal (x y : W64) : W64 := x <<< (y.toNat % 64)
/-- Logical right shift by b[5:0]. -/
def shrVal (x y : W64) : W64 := x >>> (y.toNat % 64)
/-- Arithmetic right shift by b[5:0]. -/
def sraVal (x y : W64) : W64 := x.sshiftRight (y.toNat % 64)
/-- High 64 bits of the signed 128-bit product. -/
def mulhVal (x y : W64) : W64 := BitVec.ofInt 64 (x.toInt * y.toInt / 2 ^ 64)
/-- Signed minimum. -/
def minVal (x y : W64) : W64 := if x.toInt ≤ y.toInt then x else y
/-- Signed maximum. -/
def maxVal (x y : W64) : W64 := if x.toInt ≤ y.toInt then y else x
/-- Signed less-than flag. -/
def sltVal (x y : W64) : W64 := if x.toInt < y.toInt then 1 else 0
/-- Unsigned less-than flag. -/
def sltuVal (x y : W64) : W64 := if x.toNat < y.toNat then 1 else 0

/-- ADD: d := a + b. -/
def execAdd (th : Thread) (d a b : Reg) (s : State) : Host.Outcome State Fault Refusal :=
  done (s.runAB th 0x0 d a b (fun x y => x + y))

/-- SUB: d := a − b. -/
def execSub (th : Thread) (d a b : Reg) (s : State) : Host.Outcome State Fault Refusal :=
  done (s.runAB th 0x1 d a b (fun x y => x - y))

/-- AND. -/
def execAnd (th : Thread) (d a b : Reg) (s : State) : Host.Outcome State Fault Refusal :=
  done (s.runAB th 0x2 d a b (fun x y => x &&& y))

/-- OR. -/
def execOr (th : Thread) (d a b : Reg) (s : State) : Host.Outcome State Fault Refusal :=
  done (s.runAB th 0x3 d a b (fun x y => x ||| y))

/-- XOR. -/
def execXor (th : Thread) (d a b : Reg) (s : State) : Host.Outcome State Fault Refusal :=
  done (s.runAB th 0x4 d a b (fun x y => x ^^^ y))

/-- SHL: left shift by b[5:0]. -/
def execShl (th : Thread) (d a b : Reg) (s : State) : Host.Outcome State Fault Refusal :=
  done (s.runAB th 0x5 d a b shlVal)

/-- SHR: logical right shift by b[5:0]. -/
def execShr (th : Thread) (d a b : Reg) (s : State) : Host.Outcome State Fault Refusal :=
  done (s.runAB th 0x6 d a b shrVal)

/-- SRA: arithmetic right shift by b[5:0]. -/
def execSra (th : Thread) (d a b : Reg) (s : State) : Host.Outcome State Fault Refusal :=
  done (s.runAB th 0x7 d a b sraVal)

/-- MUL: low 64 bits of a × b. -/
def execMul (th : Thread) (d a b : Reg) (s : State) : Host.Outcome State Fault Refusal :=
  done (s.runAB th 0x8 d a b (fun x y => x * y))

/-- MULH: high 64 bits of the signed product. -/
def execMulh (th : Thread) (d a b : Reg) (s : State) : Host.Outcome State Fault Refusal :=
  done (s.runAB th 0x9 d a b mulhVal)

/-- MIN: signed minimum. -/
def execMin (th : Thread) (d a b : Reg) (s : State) : Host.Outcome State Fault Refusal :=
  done (s.runAB th 0xa d a b minVal)

/-- MAX: signed maximum. -/
def execMax (th : Thread) (d a b : Reg) (s : State) : Host.Outcome State Fault Refusal :=
  done (s.runAB th 0xb d a b maxVal)

/-- SLT: 1 if a < b signed, else 0. -/
def execSlt (th : Thread) (d a b : Reg) (s : State) : Host.Outcome State Fault Refusal :=
  done (s.runAB th 0xc d a b sltVal)

/-- SLTU: 1 if a < b unsigned, else 0. -/
def execSltu (th : Thread) (d a b : Reg) (s : State) : Host.Outcome State Fault Refusal :=
  done (s.runAB th 0xd d a b sltuVal)

/-- ADDI: as ADD, with i in place of b. -/
def execAddi (th : Thread) (d a : Reg) (i : Imm) (s : State) : Host.Outcome State Fault Refusal :=
  done (s.runAI th 0x10 d a i (fun x y => x + y))

/-- ANDI: as AND, with i in place of b. -/
def execAndi (th : Thread) (d a : Reg) (i : Imm) (s : State) : Host.Outcome State Fault Refusal :=
  done (s.runAI th 0x11 d a i (fun x y => x &&& y))

/-- ORI: as OR, with i in place of b. -/
def execOri (th : Thread) (d a : Reg) (i : Imm) (s : State) : Host.Outcome State Fault Refusal :=
  done (s.runAI th 0x12 d a i (fun x y => x ||| y))

/-- XORI: as XOR, with i in place of b. -/
def execXori (th : Thread) (d a : Reg) (i : Imm) (s : State) : Host.Outcome State Fault Refusal :=
  done (s.runAI th 0x13 d a i (fun x y => x ^^^ y))

/-- SHLI: as SHL, with i in place of b. -/
def execShli (th : Thread) (d a : Reg) (i : Imm) (s : State) : Host.Outcome State Fault Refusal :=
  done (s.runAI th 0x14 d a i shlVal)

/-- SHRI: as SHR, with i in place of b. -/
def execShri (th : Thread) (d a : Reg) (i : Imm) (s : State) : Host.Outcome State Fault Refusal :=
  done (s.runAI th 0x15 d a i shrVal)

/-- SRAI: as SRA, with i in place of b. -/
def execSrai (th : Thread) (d a : Reg) (i : Imm) (s : State) : Host.Outcome State Fault Refusal :=
  done (s.runAI th 0x16 d a i sraVal)

/-- MULI: as MUL, with i in place of b. -/
def execMuli (th : Thread) (d a : Reg) (i : Imm) (s : State) : Host.Outcome State Fault Refusal :=
  done (s.runAI th 0x17 d a i (fun x y => x * y))

/-- MINI: as MIN, with i in place of b. -/
def execMini (th : Thread) (d a : Reg) (i : Imm) (s : State) : Host.Outcome State Fault Refusal :=
  done (s.runAI th 0x18 d a i minVal)

/-- MAXI: as MAX, with i in place of b. -/
def execMaxi (th : Thread) (d a : Reg) (i : Imm) (s : State) : Host.Outcome State Fault Refusal :=
  done (s.runAI th 0x19 d a i maxVal)

/-- SLTI: as SLT, with i in place of b. -/
def execSlti (th : Thread) (d a : Reg) (i : Imm) (s : State) : Host.Outcome State Fault Refusal :=
  done (s.runAI th 0x1a d a i sltVal)

/-- SLTUI: as SLTU, with i in place of b. -/
def execSltui (th : Thread) (d a : Reg) (i : Imm) (s : State) : Host.Outcome State Fault Refusal :=
  done (s.runAI th 0x1b d a i sltuVal)

/-- LIH: d := i[40:0] << 23. -/
def execLih (th : Thread) (d : Reg) (i : Imm) (s : State) : Host.Outcome State Fault Refusal :=
  done (s.runAI th 0x1C d 0 i fun _ _ => i.setWidth 64 <<< 23)

end Sys2Proof.Machine
end

