-- ==== Sys2Proof/Machine/ObjectTable.lean ====
section
/-! DEFINITION. The objects of the dictionary: index, subindices, access kind and length (Tables AI-4, EA, HP, KP-9,
MM-7, MM-10, OD-4 to OD-8, PG-1, PG-5, PW-11, QD-2, TL-6), and what a warm reset keeps (R322). -/

namespace Sys2Proof.Machine

/-- Access kinds (The Kwekoash Parameter Protocol). -/
inductive Access where
  | const
  | ro
  | rw
  | wo
  | lk
  | w1
  | w1f
  deriving DecidableEq, Repr

/-- Rows of the dictionary: indices `lo` to `lo + (n − 1) × step`, subindices `a` to `b`, access, bytes (0: as long
as the object's own rule says). -/
structure ObjRow where
  lo : Nat
  n : Nat
  step : Nat
  a : Nat
  b : Nat
  acc : Access
  bytes : Nat
  deriving DecidableEq, Repr

/-- A row of one index. -/
def row1 (i a b : Nat) (acc : Access) (bytes : Nat) : ObjRow := { lo := i, n := 1, step := 1, a, b, acc, bytes }

/-- Rows of an index per partition, timer or domain. -/
def rowN (i n : Nat) (a b : Nat) (acc : Access) (bytes : Nat) : ObjRow := { lo := i, n, step := 1, a, b, acc, bytes }

/-- Rows of a partition object (Table PG-1). -/
def rowP (a : Nat) (bytes : Nat) : ObjRow := { lo := 0x3000, n := 8, step := 0x10, a, b := a, acc := .lk, bytes }

/-- Identity, state and locks (Table OD-4, Table AI-4). -/
def rowsIdentity : List ObjRow := [
  row1 0x1000 0 0 .const 4, row1 0x1001 0 0 .ro 1, row1 0x1002 0 0 .const 0, row1 0x1003 0 0 .const 2,
  row1 0x1004 0 0 .const 2, row1 0x1005 1 0x10 .const 2, row1 0x1006 0 0 .const 8, row1 0x1007 0 0 .ro 1,
  row1 0x1008 0 0 .ro 1, row1 0x1009 0 0 .wo 1, row1 0x1201 0 0 .rw 1, row1 0x1202 0 0 .w1 1, row1 0x1203 0 0 .w1 1]

/-- Communication (Table KP-9). -/
def rowsComm : List ObjRow := [
  row1 0x1100 0 0 .ro 1, row1 0x1101 1 2 .rw 4, row1 0x1101 3 3 .rw 1, row1 0x1101 4 4 .wo 1, row1 0x1102 0 0 .rw 2,
  row1 0x1103 1 1 .ro 1, row1 0x1103 2 2 .rw 2, row1 0x1103 4 4 .rw 2, row1 0x1104 1 1 .rw 1, row1 0x1104 2 2 .rw 4,
  row1 0x1105 1 1 .rw 1, row1 0x1105 2 2 .rw 2, row1 0x1105 3 4 .rw 4, row1 0x1105 5 5 .rw 2, row1 0x1106 1 0x80 .lk 1]

/-- Epoch, Almanac, timers (Table OD-5). -/
def rowsEpoch : List ObjRow := [
  row1 0x2000 1 3 .rw 1, row1 0x2000 4 4 .wo 1, row1 0x2001 0 0 .rw 4, row1 0x2002 0 0 .rw 8, row1 0x2003 1 1 .ro 1,
  row1 0x2003 2 2 .ro 8, row1 0x2003 3 3 .ro 4, row1 0x2003 4 4 .ro 8, row1 0x2004 1 4 .ro 4, row1 0x2005 0 0 .wo 12,
  row1 0x2006 1 3 .rw 1, row1 0x2007 1 1 .ro 4, row1 0x2007 2 2 .rw 4, row1 0x2100 1 1 .rw 16384,
  row1 0x2100 2 2 .rw 16, row1 0x2101 1 1 .rw 16384, row1 0x2101 2 2 .rw 16, row1 0x2103 1 1 .ro 1,
  row1 0x2103 2 2 .rw 1, row1 0x2103 3 4 .ro 1, row1 0x2103 5 7 .ro 4, row1 0x2104 0 0 .lk 1, rowN 0x2110 32 1 1 .ro 1,
  rowN 0x2110 32 2 4 .ro 4]

/-- Power, scrub, host port (Tables OD-6 and PW-11, frame list bases). -/
def rowsPower : List ObjRow := [
  row1 0x2200 1 50 .rw 1, row1 0x2201 1 50 .ro 1, row1 0x2202 1 1 .wo 1, row1 0x2202 2 2 .rw 1, row1 0x2202 3 3 .ro 4,
  row1 0x2202 4 4 .ro 1, row1 0x2202 5 5 .wo 1, row1 0x2202 6 6 .lk 8, row1 0x2202 7 7 .rw 1, row1 0x2203 1 1 .ro 4,
  row1 0x2203 2 3 .rw 4, row1 0x2203 4 4 .ro 2, row1 0x2204 1 50 .ro 4, row1 0x30F0 1 1 .ro 1, row1 0x30F0 2 2 .ro 4,
  row1 0x3500 1 1 .lk 8, row1 0x3500 2 2 .lk 1, row1 0x3500 3 4 .ro 1, row1 0x3500 0x10 0x17 .lk 8]

/-- Partitions, queues, matrix, Trellis, external memory (Tables PG-1, QD-2, MM-7, TL-6, MM-10). -/
def rowsFabric : List ObjRow := [
  rowP 1 2, rowP 2 32, rowP 3 32, rowP 4 24, rowP 5 2, rowP 6 8, rowP 7 4, rowP 8 8, rowP 9 8, rowP 0xA 4, rowP 0xB 8,
  rowP 0xC 4, rowP 0xD 1, rowP 0xE 2, rowP 0xF 8,
  row1 0x3100 1 32 .lk 4, row1 0x3101 1 32 .lk 8, row1 0x3102 1 32 .lk 8, row1 0x3103 1 32 .rw 1,
  row1 0x3200 1 0x40 .lk 32, row1 0x3200 0x42 0x4F .rw 1, row1 0x3200 0x50 0x59 .rw 1, row1 0x3200 0x5B 0x5B .rw 18,
  row1 0x3300 1 1 .rw 1, row1 0x3300 2 2 .ro 4, row1 0x3300 3 3 .ro 8, row1 0x3300 4 4 .rw 128, row1 0x3300 5 5 .rw 4,
  row1 0x3300 0x10 0x17 .ro 4, row1 0x3300 0x20 0x20 .rw 1, row1 0x3300 0x21 0x21 .wo 8, row1 0x3300 0x30 0x37 .rw 16,
  row1 0x3300 0x38 0x3F .rw 1, row1 0x3300 0x40 0x42 .rw 4,
  row1 0x3400 1 1 .w1 1, row1 0x3400 2 2 .w1 2, row1 0x3400 3 3 .w1 1, row1 0x3400 4 4 .ro 4, row1 0x3400 5 5 .ro 8]

/-- Streams, table slots, trace, firmware (Table OD-7), images and alerts (Table KP-9). -/
def rowsStreams : List ObjRow := [
  row1 0x4000 1 1 .lk 8, rowN 0x4010 8 1 1 .lk 1, rowN 0x4010 8 2 3 .lk 4, rowN 0x4010 8 4 5 .lk 8,
  rowN 0x4010 8 6 7 .lk 4, rowN 0x4020 8 1 0xB .ro 4, row1 0x5000 1 32 .ro 4,
  row1 0x6000 1 1 .ro 64, row1 0x6000 2 2 .rw 64, row1 0x6002 1 1 .lk 8, row1 0x6002 2 2 .lk 2, row1 0x6002 3 3 .lk 1,
  row1 0x6003 1 1 .ro 64, row1 0x6010 1 1 .ro 0, row1 0x6010 2 2 .wo 4,
  row1 0x7800 1 3 .rw 1, row1 0x7800 4 4 .rw 8, row1 0x7800 5 5 .rw 4, row1 0x7800 6 6 .rw 8, row1 0x7800 7 7 .ro 4,
  row1 0x7F00 1 1 .ro 1, row1 0x7F00 2 2 .lk 1, row1 0x7F00 3 4 .ro 4, row1 0x7F00 5 5 .w1f 1, row1 0x7F00 6 6 .w1f 48,
  row1 0x7F00 7 7 .ro 4, row1 0x7F00 8 8 .wo 0, row1 0x7F00 9 9 .rw 4]

/-- Codes of Table OD-10, by high byte: highest low byte; every lower one from 1 is a code too. -/
def faultCodes : List (Nat × Nat) :=
  [(1, 5), (2, 6), (3, 4), (4, 3), (5, 5), (6, 3), (7, 2), (8, 3), (9, 3), (0xA, 4), (0xB, 2), (0xC, 2), (0xD, 2),
    (0xE, 4), (0xF, 1), (0x10, 3)]

/-- Faults, counters and audits (Tables OD-8, PG-5, KP-9, and the counters of the units). -/
def rowsCounters : List ObjRow := [
  row1 0x7000 1 1 .ro 4, row1 0x7000 2 2 .ro 1, row1 0x7000 3 5 .ro 4, row1 0x7000 6 6 .wo 4, row1 0x7001 0 0 .ro 0,
  row1 0x7002 0 0 .ro 64, row1 0x7030 1 4 .ro 4, row1 0x7031 1 4 .ro 4, row1 0x7032 1 4 .ro 4, row1 0x7040 1 4 .ro 4,
  row1 0x7050 1 8 .ro 4, row1 0x7051 1 8 .ro 4, row1 0x7052 1 8 .ro 4, row1 0x7053 1 8 .ro 4, row1 0x7054 1 2 .ro 4,
  row1 0x7060 1 1 .wo 1, row1 0x7060 2 2 .ro 1, row1 0x7061 1 32 .ro 8, row1 0x7062 1 1 .ro 4, row1 0x7063 1 8 .ro 20,
  row1 0x7064 1 1 .ro 16, row1 0x7065 1 1 .ro 12, row1 0x7066 1 4 .ro 8, row1 0x7070 1 1 .ro 4, row1 0x7071 1 5 .ro 4,
  row1 0x7072 1 1 .ro 4] ++ faultCodes.map fun e => row1 (0x7010 + e.1) 1 e.2 .ro 4

/-- The dictionary. -/
def dictionary : List ObjRow :=
  rowsIdentity ++ rowsComm ++ rowsEpoch ++ rowsPower ++ rowsFabric ++ rowsStreams ++ rowsCounters

/-- A row holds an index. -/
def ObjRow.hasIndex (r : ObjRow) (i : Nat) : Bool :=
  decide (r.lo ≤ i) && decide ((i - r.lo) % r.step = 0) && decide ((i - r.lo) / r.step < r.n)

/-- The row of an object. -/
def objRow (i j : Nat) : Option ObjRow :=
  dictionary.find? fun r => r.hasIndex i && decide (r.a ≤ j) && decide (j ≤ r.b)

/-- Some object has the index. -/
def hasObject (i : Nat) : Bool := dictionary.any fun r => r.hasIndex i

/-- Objects whose values a warm reset keeps (R322). Training is restored, not repeated (R379), so its status and the
capacity stand too (DEDUCED, log 36). -/
def keptWarm (i j : Nat) : Bool :=
  (match objRow i j with
   | some r => decide (r.acc ∈ [Access.lk, .w1, .w1f])
   | none => false) ||
  (decide (0x1201 ≤ i) && decide (i ≤ 0x1203)) || (decide (0x2000 ≤ i) && decide (i ≤ 0x2007)) ||
  (decide (0x7000 ≤ i) && decide (i ≤ 0x7020)) || (decide (0x4020 ≤ i) && decide (i ≤ 0x4027) && decide (j = 0xB))

end Sys2Proof.Machine
end

