-- ==== Sys2Proof/Machine/Partitions.lean ====
section
/-! DEFINITION. Partitions: the lock and its checks, reassignment and scrubs, the audit mark (R281 to R297, R440). -/

namespace Sys2Proof.Machine

/-! ### Lock checks (Table PG-2) -/

/-- A failed check: its number, and the partition that the fault record names, none for device-wide (R285). -/
abbrev LockFail := Option (Nat × Option Nat)

/-- A check over cases fails at its first failing case. -/
def failFirst {α : Type} (n : Nat) (l : List α) (bad : α → Bool) (who : α → Option Nat) : LockFail :=
  (l.find? bad).map fun x => (n, who x)

/-- Widths of the masks of Table PG-1 whose bits are resources, by subindex. -/
def maskWidths : List (Nat × Nat) :=
  [(1, 16), (2, 256), (3, 256), (4, 192), (5, 16), (6, 64), (0xA, 32), (0xB, 64)]

/-- Pairs of partitions p < q, p rising. -/
def partPairs : List (Nat × Nat) := (List.range 8).flatMap fun p => (List.range 8).filterMap fun q => if p < q then some (p, q) else none

/-- First entry and count of a partition's Almanac range (Table PG-1 sub 07). -/
def State.rangeOf (s : State) (p : Nat) : Nat × Nat := (bits (s.partObj p 7) 25 16, bits (s.partObj p 7) 10 0)

/-- Two entry ranges share an entry. -/
def rangesMeet (a b : Nat × Nat) : Bool :=
  decide (0 < a.2) && decide (0 < b.2) && decide (a.1 < b.1 + b.2) && decide (b.1 < a.1 + a.2)

/-- Check 1: nothing owned twice; Almanac ranges apart and within 0 to 1,023. -/
def State.check1 (s : State) : LockFail :=
  failFirst 1 partPairs (fun x => maskWidths.any fun m => decide (s.partObj x.1 m.1 &&& s.partObj x.2 m.1 ≠ 0))
      (fun x => some x.1) <|>
  failFirst 1 partPairs (fun x => rangesMeet (s.rangeOf x.1) (s.rangeOf x.2)) (fun x => some x.1) <|>
  failFirst 1 (List.range 8) (fun p => decide (0 < (s.rangeOf p).2) && decide (1024 < (s.rangeOf p).1 + (s.rangeOf p).2)) some

/-- Link share of partition p on port k (Table PG-1 sub 09). -/
def State.linkShare (s : State) (p k : Nat) : Nat := bits (s.partObj p 9) (8 * k + 7) (8 * k)

/-- Check 2: link shares total at most 60 on each port. -/
def State.check2 (s : State) : LockFail :=
  failFirst 2 (List.range 8) (fun k => decide (60 < ((List.range 8).map fun p => s.linkShare p k).sum))
    (fun k => (List.range 8).find? fun p => decide (s.linkShare p k ≠ 0))

/-- Owned and system windows that are enabled obey R282. -/
def State.windowObeys (s : State) (w : Nat) : Bool :=
  let v := s.window w
  !v.testBit 143 ||
    (match s.owner 6 w with
     | some p => decide ((bits v 151 144 ||| bits v 159 152) &&& (255 - 2 ^ p) = 0)
     | none => decide (bits v 175 162 % 256 = 0) || decide (popcount 8 (bits v 159 152) ≤ 1))

/-- Check 3. -/
def State.check3 (s : State) : LockFail :=
  failFirst 3 (List.range 64) (fun w => !s.windowObeys w) (s.owner 6)

/-- Check 4: Imposer and Element Engine queues of a bed belong to an owner of one of its arrays. -/
def State.check4 (s : State) : LockFail :=
  failFirst 4 (List.range 32)
    (fun q => decide (1 ≤ s.qCons q) && decide (s.qCons q ≤ 3) &&
      decide (bits (s.partObj (s.qPart q) 1) (4 * s.qBed q + 3) (4 * s.qBed q) = 0))
    (fun q => some (s.qPart q))

/-- Partition p owns the region 0 bytes from pos to its end: the union of its enabled owned windows (R282). -/
def State.ownsSpan0 (s : State) (p stop : Nat) : Nat → Nat → Bool
  | 0, pos => decide (stop ≤ pos)
  | n + 1, pos =>
    decide (stop ≤ pos) ||
      (match (List.range 64).find? fun w => s.owns p 6 w && windowHits (s.window w) 0 pos with
       | some w => s.ownsSpan0 p stop n (bits (s.window w) 47 0 + bits (s.window w) 127 64)
       | none => false)

/-- Granules of size g that a span touches. -/
def granules (off len g : Nat) : List Nat := (List.range ((off + len + g - 1) / g - off / g)).map (· + off / g)

/-- Partition p owns len bytes of memory at an address on this SX4 (lock check 5, R66, R106). -/
def State.ownsSpan (s : State) (p addr len : Nat) : Bool :=
  match s.localPlace addr with
  | none => false
  | some (r, off) =>
    let b := r % 4
    if r = 0 then s.ownsSpan0 p (off + len) 65 off
    else if r = 1 then (granules (off % 2 ^ 24) len (2 ^ 16)).all (s.owns p 4)
    else if r < 4 || r ≥ 24 || off + len > regionSize r then false
    else if r < 20 then
      let g := if r < 8 then 2 ^ 16 else if r < 12 then 2 ^ 20 else if r < 16 then 384 * 2 ^ 10 else 2 ^ 16
      (granules off len g).all fun i => s.ownsByte p r (i * g)
    else decide (bits (s.partObj p 2) (64 * b + 63) (64 * b) = 2 ^ 64 - 1)

/-- Check 5: slot areas, seed tables, rings and completion rings. -/
def State.check5 (s : State) : LockFail :=
  let used := (List.range 8).filter fun p => decide (s.slotAreaLen p ≠ 0)
  failFirst 5 used (fun p => !(granules (s.slotArea p) (s.slotAreaLen p) (2 ^ 16)).all (s.owns p 4)) some <|>
  failFirst 5 used (fun p => !s.ownsSpan p (s.obj (0x4010 + p) 4) (16 * s.seedStride p)) some <|>
  failFirst 5 (List.range 32)
    (fun q => (decide (s.qRing q ≠ 0) && !s.ownsSpan (s.qPart q) (s.qRing q) (64 * s.qDepth q)) ||
      (decide (s.qCompletion q ≠ 0) && !s.ownsSpan (s.qPart q) (s.qCompletion q) (16 * s.qDepth q)))
    (fun q => some (s.qPart q))

/-- Partitions whose object 0D asks for sealed mode. -/
def State.sealedParts (s : State) : List Nat := (List.range 8).filter fun p => decide (s.partObj p 13 ≠ 0)

/-- Resources per bed of the masks that check 6 names. -/
def bedMasks : List (Nat × Nat) := [(1, 4), (2, 64), (3, 64), (5, 4), (0xA, 8)]

/-- A partition that owns any of a bed's resources owns them all, and the bed's four queues of Table QD-1. -/
def State.ownsBedWhole (s : State) (p b : Nat) : Bool :=
  let part (m : Nat × Nat) : Nat := bits (s.partObj p m.1) (m.2 * b + m.2 - 1) (m.2 * b)
  (bedMasks.all fun m => decide (part m = 0)) ||
    ((bedMasks.all fun m => decide (part m = 2 ^ m.2 - 1)) &&
      [2 * b, 2 * b + 1, 8 + 2 * b, 9 + 2 * b].all fun q => decide (s.qPart q = p))

/-- Check 6. -/
def State.check6 (s : State) : LockFail :=
  failFirst 6 s.sealedParts (fun p => !(List.range 4).all (s.ownsBedWhole p)) some

/-- Check 7: matrix slots and cache ways of sealed partitions. -/
def State.check7 (s : State) : LockFail :=
  let ps := s.sealedParts
  failFirst 7 ps (fun p => decide (s.partObj p 15 = 0) || decide (s.partObj p 14 = 0)) some <|>
  failFirst 7 (partPairs.filter fun x => decide (x.1 ∈ ps) && decide (x.2 ∈ ps))
    (fun x => decide (s.partObj x.1 15 &&& s.partObj x.2 15 ≠ 0) || decide (s.partObj x.1 14 &&& s.partObj x.2 14 ≠ 0))
    (fun x => some x.1) <|>
  failFirst 7 [()] (fun _ => !ps.isEmpty &&
    (List.range 16).all fun w => (List.range 8).any fun p => (s.partObj p 14).testBit w) (fun _ => none)

/-- Check 8: Almanac windows of sealed partitions, and their entries on the active page. -/
def State.check8 (s : State) : LockFail :=
  let ps := s.sealedParts
  let win (p : Nat) : Nat := s.partObj p 8
  failFirst 8 (partPairs.filter fun x => decide (x.1 ∈ ps) && decide (x.2 ∈ ps))
    (fun x => inAlmanacWindow (win x.1) (bits (win x.2) 39 20) || inAlmanacWindow (win x.2) (bits (win x.1) 39 20))
    (fun x => some x.1) <|>
  failFirst 8 ps (fun p => (s.page s.activePage).any fun e =>
    let b := e.2.toNat
    decide (b ≠ 0) && decide (entPart b = p) && !inAlmanacWindow (win p) (entPhase b)) some

/-- The first check that fails. -/
def State.lockFail (s : State) : LockFail :=
  s.check1 <|> s.check2 <|> s.check3 <|> s.check4 <|> s.check5 <|> s.check6 <|> s.check7 <|> s.check8

/-- A write of 1 to object 0x1201 (R285). -/
def State.lockWrite (s : State) : State × Nat :=
  if !s.scrubs.isEmpty then (s, 0x0B)
  else match s.lockFail with
    | some (n, some p) => (s.raise 0x0B01 (partByte p) 0 0 n p, 0x09)
    | some (n, none) => (s.raise 0x0B01 deviceWide 0 0 n 0xFF, 0x09)
    | none => (s.setObj 0x1201 0 1, 0)

/-- PARTITION_LOCK (R285). -/
def execPartitionLock (s : State) : Host.Outcome State Fault Refusal := done (s.answered s.lockWrite)

/-- PARTITION_UNLOCK: a write of 0 clears the lock at once, and sealed mode lapses (R285, R290). -/
def execPartitionUnlock (s : State) : Host.Outcome State Fault Refusal := done (s.answered (s.setObj 0x1201 0 0, 0))

/-! ### Reassignment (R286 to R288, R440) -/

/-- Spans of bytes that a resource's scrub zeroes, by mask subindex and bit (Table PG-3). -/
def scrubSpans (sub i : Nat) : List (Nat × Nat) :=
  match sub with
  | 1 => [(memKey (8 + i / 4) (i % 4 * 2 ^ 20), 2 ^ 20), (memKey (12 + i / 4) (i % 4 * (384 * 2 ^ 10)), 384 * 2 ^ 10)]
  | 3 => [(memKey (4 + i / 64) (i % 64 * 2 ^ 16), 2 ^ 16)]
  | 4 => [(memKey 1 (i * 2 ^ 16), 2 ^ 16)]
  | 5 => [(memKey (16 + i / 4) (i % 4 * 2 ^ 16), 2 ^ 16)]
  | _ => []

/-- Scrub engine of a resource: T0 to T3 by bed, T4 for the State Store. -/
def scrubEngine (sub i : Nat) : Nat := if sub = 4 then 4 else if sub = 3 then i / 64 else i / 4

/-- The partition that last owned a resource. -/
def State.last (s : State) (sub i : Nat) : Nat := tget s.lastOwner (sub * 1024 + i) 0

/-- A resource is being scrubbed (R288). -/
def State.resourceScrubbing (s : State) (sub i : Nat) : Bool :=
  s.scrubs.any fun c => (scrubSpans sub i).any fun x => decide (x ∈ c.spans)

/-- A State Store region holds a `VALID` slot (R286). -/
def State.regionHeld (s : State) (i : Nat) : Bool :=
  (List.range 8).any fun p => (s.validSlots p).any fun k =>
    decide (s.slotOff p k < (i + 1) * 2 ^ 16) && decide (i * 2 ^ 16 < s.slotOff p k + s.slotSize p)

/-- A resource that its old owner still uses (R286). -/
def State.inUse (s : State) (sub i : Nat) : Bool :=
  (sub = 2 && decide ((s.context i).state ≠ .free)) || (sub = 4 && s.regionHeld i)

/-- Start a resource's scrub: its own logic at once, or its engine (R287, Table PG-3). -/
def State.startScrub (s : State) (p sub i : Nat) : State :=
  let s := { s with lastOwner := tset s.lastOwner (sub * 1024 + i) p 0 }
  match sub with
  | 2 => (s.setContext i { s.context i with regs := [], mregs := [] }).zeroCounter i
  | 0xA => { s with tables := tset s.tables i [] [] }
  | _ =>
    let spans := scrubSpans sub i
    let free := ((s.scrubs.filter fun c => decide (c.engine = scrubEngine sub i)).map fun c =>
      c.start + c.bytes / 64).foldl Max.max s.cycle
    let c : Scrub := { engine := scrubEngine sub i, spans, bytes := (spans.map (·.2)).sum, start := free }
    { s with scrubs := s.scrubs ++ [c] }

/-- Subindices of Table PG-1 whose resources a scrub zeroes. -/
def scrubbed (sub : Nat) : Bool := sub ∈ [1, 2, 3, 4, 5, 0xA]

/-- Resources that a write of a mask gives to partition p from another (R287). -/
def State.given (s : State) (p sub v : Nat) : List Nat :=
  if scrubbed sub then
    (setList 256 v).filter fun i => !s.owns p sub i && decide (s.last sub i ≠ p)
  else []

/-- A write of a mask of Table PG-1, judged as a whole (R440). -/
def State.reassign (s : State) (p sub v : Nat) : State × Nat :=
  let l := s.given p sub v
  if l.any (s.resourceScrubbing sub) then (s.raise 0x0B02 (partByte p), 0x0B)
  else if l.any (s.inUse sub) then (s, 0x09)
  else (l.foldl (fun s i => s.startScrub p sub i) (s.setObj (partIndex p) sub v), 0)

/-- Bytes of a subindex of Table PG-1. -/
def partObjectBytes (sub : Nat) : Option Nat :=
  [(1, 2), (2, 32), (3, 32), (4, 24), (5, 2), (6, 8), (7, 4), (8, 8), (9, 8), (0xA, 4), (0xB, 8), (0xC, 4), (0xD, 1),
    (0xE, 2), (0xF, 8)].lookup sub

/-- Whether a value lies in the range of a subindex of Table PG-1. -/
def partValueOk (sub v : Nat) : Bool :=
  match sub with
  | 7 => decide (bits v 10 0 ≤ 1024) && decide (bits v 15 11 = 0) && decide (v < 2 ^ 26)
  | 8 => decide (v < 2 ^ 40)
  | 9 => (List.range 8).all fun k => decide (bits v (8 * k + 7) (8 * k) ≤ 60)
  | 0xD => decide (v ≤ 1)
  | _ => true

/-- A write of object 0x3000 + 0x10p:sub, in the order of Table KP-5; the partition lock stands apart. -/
def State.partWrite (s : State) (p sub v : Nat) : State × Nat :=
  match partObjectBytes sub with
  | none => (s, 0x02)
  | some n =>
    if v ≥ 256 ^ n then (s, 0x05)
    else if !partValueOk sub v then (s, 0x06)
    else s.reassign p sub v

/-- REASSIGNMENT (R281, R285 to R288, R440). -/
def execReassignment (p : Part) (sub : BitVec 8) (value : Nat) (s : State) : Host.Outcome State Fault Refusal :=
  done (s.answered (s.guarded fun s => s.partWrite p sub.toNat value))

/-- The bytes of a resource are zero and its scrub ends. -/
def State.endScrub (s : State) (c : Scrub) : State :=
  let s := { s with scrubs := s.scrubs.erase c }
  c.spans.foldl (fun s x => (s.zeroSpan x.1 x.2).eccClear x.1 x.2) s

/-- SCRUB_DONE: an engine ends the scrub of the resource it took first (R287, R288). -/
def execScrubDone (engine : Fin 5) (s : State) : Host.Outcome State Fault Refusal :=
  done (match s.scrubs.find? fun c => decide (c.engine = engine.val) with
  | some c => s.endScrub c
  | none => s)

/-- Object 0x30F0:02: the bytes that an engine of 64 bytes a cycle has left by now (R287, R288, log 72). -/
def State.scrubLeft (s : State) : Nat := (s.scrubs.map fun c => c.bytes - 64 * (s.cycle - c.start)).sum

/-! ### Audits (R296, Table PG-5) -/

/-- Entries of the stream table that hold a byte other than zero; any other is Free (R49). -/
def State.listedEntries (s : State) : List Nat :=
  let base := memKey 0 (s.obj 0x4000 1)
  (s.mem.filterMap fun c =>
    if base ≤ c.1 ∧ c.1 < base + 32 * Config.streamCount then some ((c.1 - base) / 32) else none).dedup

/-- Streams of a partition in Banked, Resident or Ending (Table PG-5). -/
def State.liveStreams (s : State) (p : Nat) : Nat :=
  let first := s.obj (0x4010 + p) 6
  (s.listedEntries.filter fun i =>
    decide (first ≤ i) && decide (i < first + s.obj (0x4010 + p) 7) &&
      decide ((s.entry i).life ∈ [Life.banked, Life.resident, Life.ending])).length

/-- Little-endian number of 32-bit words. -/
def words (l : List Nat) : Nat := leNat (l.flatMap fun x => natLe x 4)

/-- Current value of an audit object. -/
def State.auditNow (s : State) (i j : Nat) : Nat :=
  match i with
  | 0x7061 =>
    let k := s.queue (j - 1)
    s.credits (j - 1) * 2 ^ 32 + (k.tail - k.head).toNat
  | 0x7062 => (Config.poolBuffers - s.host.buffers.length) * 2 ^ 16 + s.host.buffers.length
  | 0x7063 =>
    let p := j - 1
    let n (m : Table W32) : Nat := (tget m p 0).toNat
    words [s.liveStreams p, n s.streams.creates, n s.streams.imports, n s.streams.exported, n s.streams.ends]
  | 0x7064 =>
    let h := s.host
    words [h.framesReceived.toNat, h.framesAccepted.toNat, h.framesLate.toNat, h.framesRejected.toNat]
  | 0x7065 => words [s.alerts.produced.toNat, s.alerts.latched.toNat, s.alerts.notLatched.toNat]
  | 0x7066 =>
    let sum (m : Table W32) : Nat := ((List.range 64).map fun k => (tget m (64 * (j - 1) + k) 0).toNat).sum % 2 ^ 32
    sum s.added * 2 ^ 32 + sum s.counters
  | _ => s.obj i j

/-- Audit objects by index, with their subindices (Table PG-5). -/
def auditObjects : List (Nat × Nat) :=
  [(0x7053, 8), (0x7061, 32), (0x7062, 1), (0x7063, 8), (0x7064, 1), (0x7065, 1), (0x7066, 4)]

/-- Capture every audit object and clear 0x7060:02 (R296). -/
def State.auditMark (s : State) : State :=
  let all := auditObjects.flatMap fun e => (List.range e.2).map fun j => (e.1, j + 1)
  let c := all.foldl (fun m e => tset m (objKey e.1 e.2) (s.auditNow e.1 e.2) 0) []
  { s with captured := c }.setObj 0x7060 2 0

/-- AUDIT_MARK: a write of 1 to object 0x7060:01 (R296). -/
def execAuditMark (s : State) : Host.Outcome State Fault Refusal := done (s.answered (s.auditMark, 0))

end Sys2Proof.Machine
end

