-- ==== Sys2Proof/Machine/TraceUnit.lean ====
section
/-! DEFINITION. The trace funnel: timestamps, the order of packets, loss, the ring; JTAG (R393 to R405). -/

namespace Sys2Proof.Machine

/-! ### Output -/

/-- Change the trace unit. -/
def State.mapTrace (s : State) (f : Trace → Trace) : State := { s with trace := f s.trace }

/-- The trace ring can hold packets (R403). -/
def State.ringUsable (s : State) : Bool := decide (8192 ≤ s.obj 0x7800 5)

/-- Write bytes of the ring at a packet offset, through M12; bytes past its end go on at byte 64 (R403). -/
def State.ringBytes (s : State) (pos : Nat) (l : List Byte) : State :=
  let span := s.obj 0x7800 5 - 64
  let o := pos % span
  let put (s : State) (o : Nat) (l : List Byte) : State :=
    if l.isEmpty then s else (s.mwrite 12 deviceWide (localAddr 0 (s.obj 0x7800 4 + 64 + o)) l).1
  put (put s o (l.take (span - o))) 0 (l.drop (span - o))

/-- Update the total in bytes 0 to 7 of the ring. -/
def State.ringTotal (s : State) : State :=
  if s.ringUsable then (s.mwrite 12 deviceWide (localAddr 0 (s.obj 0x7800 4)) (natLe s.trace.ringTotal 8)).1 else s

/-- A packet leaves the funnel, on the pins or into the ring (R402, R403). -/
def State.sendPacket (s : State) (p : List Byte) : State :=
  if s.obj 0x7800 2 = 0 then { s with outputs := { s.outputs with trace := s.outputs.trace ++ [p] } }
  else if !s.ringUsable then s
  else
    let n := s.trace.ringTotal
    let s := (s.ringBytes n p).mapTrace fun t => { t with ringTotal := n + p.length }
    if n / 4096 < (n + p.length) / 4096 then s.ringTotal else s

/-- A timestamp packet (R398). -/
def State.stampBytes (s : State) : List Byte :=
  [0x7F, 0] ++ natLe s.epoch.toNat 6 ++ natLe s.phase 4 ++ natLe s.cycle 4

/-- The funnel, source 63, sends a timestamp packet, a device-wide one, ahead of every packet that waits, if that source
emits (R394, R398; DEDUCED, log 76). -/
def State.stamp (s : State) : State :=
  if s.emits 63 deviceWide then (s.sendPacket s.stampBytes).mapTrace fun t => { t with stamped := some s.cycle } else s

/-- The next cycle, this one included, whose count is a multiple of 2^N and which has no timestamp packet yet (R398). -/
def State.stampCycle (s : State) : Nat :=
  let n := 2 ^ s.obj 0x7800 3
  if s.trace.stamped = some (roundUp s.cycle n) then roundUp s.cycle n + n else roundUp s.cycle n

/-- A packet's kind: 2 for overflow. -/
def isOverflow (p : List Byte) : Bool := decide (((p.headD 0).toNat / 64) = 2)

/-- The source whose packet the funnel takes next: one with an overflow packet in front, else round robin in
ascending order (R399). -/
def State.nextSource (s : State) : Option Nat :=
  let front (i : Nat) : Option (List Byte) := (tget s.trace.buffers i []).head?
  ((List.range 64).find? fun i => ((front i).map isOverflow).getD false) <|>
    (((List.range 64).map fun i => (s.trace.lastSource + 1 + i) % 64).find? fun i => (front i).isSome)

/-- The funnel sends one packet. -/
def State.funnel (s : State) : State :=
  if !s.traceOn then s
  else match s.nextSource with
    | none => s
    | some i =>
      match tget s.trace.buffers i [] with
      | [] => s
      | p :: rest =>
        (s.mapTrace fun t => { t with
          buffers := tset t.buffers i rest [], lastSource := if isOverflow p then t.lastSource else i }).sendPacket p

/-- One CCLK cycle with no command waiting: the funnel sends one packet, in a multiple of 2^N cycles the timestamp (R398,
R399; DESIGN CHOICE, log 1). -/
def State.idleCycle (s : State) : State :=
  let s := { s with cycle := s.cycle + 1 }
  if s.emits 63 deviceWide && decide (s.cycle % 2 ^ s.obj 0x7800 3 = 0) then s.stamp else s.funnel

/-! ### Commands -/

/-- TIMESTAMP: the next cycle whose count is a multiple of 2^N (R398). -/
def execTimestamp (s : State) : Host.Outcome State Fault Refusal := done (s.advance s.stampCycle).stamp

/-- A write of object 0x7800:01: enabling sends a timestamp first, and each source's next loss raises 0x0F01
again; disabling updates the ring's total (R398, R400, R403). -/
def State.traceWrite (s : State) (v : Nat) : State :=
  let was := s.objOn 0x7800 1
  let s' := s.setObj 0x7800 1 v
  if !was && decide (v = 1) then (s'.mapTrace fun t => { t with warned := [] }).stamp
  else if was && decide (v = 0) && decide (s.obj 0x7800 2 = 1) then s'.ringTotal
  else s'

/-- TRACE_ENABLE (R398). -/
def execTraceEnable (s : State) : Host.Outcome State Fault Refusal := done (s.answered (s.traceWrite 1, 0))

/-- PART byte of a source's overflow packet, which acts for the partition that owns the source (R394; DESIGN CHOICE,
log 76). -/
def State.overflowWho (s : State) (source : Nat) : BitVec 8 := partByte ((s.owner 11 source).getD 0)

/-- OVERFLOW_PACKET: a source with losses and room emits one overflow packet ahead of its others (R394, R400). -/
def execOverflowPacket (source : Fin 64) (s : State) : Host.Outcome State Fault Refusal :=
  let l := tget s.trace.losses source (0, 0)
  let b := tget s.trace.buffers source []
  let p : List Byte := [BitVec.ofNat 8 (128 + source), 0, s.overflowWho source, 0] ++ natLe l.2 4 ++ natLe l.1 4 ++ zeros 4
  done (if s.emits source (s.overflowWho source) && decide (l.1 ≠ 0) && decide (b.length < 64) then
    s.mapTrace fun t => { t with
      buffers := tset t.buffers source (p :: b) [], losses := tset t.losses source (0, 0) (0, 0)
      warned := t.warned.filter (· ≠ source.val) }
  else s)

/-- A write of the trace ring's base or size: its value in range, and the total to zero (R403, Table OD-7). -/
def State.traceRing (s : State) (r : TraceRingReg) (v : Nat) : State × Nat :=
  match r with
  | .base =>
    if v % 4096 ≠ 0 || v ≥ 2 ^ 48 then (s, 0x06)
    else ((s.setObj 0x7800 4 v).mapTrace fun t => { t with ringTotal := 0 }, 0)
  | .size =>
    if v % 4096 ≠ 0 || v = 4096 || v ≥ 2 ^ 32 then (s, 0x06)
    else ((s.setObj 0x7800 5 v).mapTrace fun t => { t with ringTotal := 0 }, 0)

/-- TRACE_RING_CONFIG (R403). -/
def execTraceRingConfig (r : TraceRingReg) (value : W64) (s : State) : Host.Outcome State Fault Refusal :=
  done (s.answered (s.traceRing r value.toNat))

/-- Packets that wait are discarded and counted: D49 off, Rest, reset (R401). -/
def State.discardTrace (s : State) : State :=
  let n := (s.trace.buffers.map fun e => e.2.length).sum
  (s.bump 0x7800 7 n).mapTrace fun t => { t with buffers := [], losses := [], warned := [] }

/-! ### JTAG (R404, R405) -/

/-- The TAP is held in test-logic reset (R405). -/
def State.tapHeld (s : State) : Bool := s.objOn 0x1202 0 && s.objOn 0x7F00 5

/-- Test-logic reset selects BYPASS (R404). -/
def State.tapReset (s : State) : State := { s with jtag := { inReset := true } }

/-- A write of the debug lock, a W1 object (R306, R405). -/
def State.debugLock (s : State) (v : Nat) : State × Nat :=
  s.onceWrite 0x1202 0 v fun s =>
    if v > 1 then (s, 0x06)
    else
      let s := s.setObj 0x1202 0 v
      (if s.tapHeld then s.tapReset else s, 0)

/-- DEBUG_LOCK: a write of 1 to object 0x1202; repeated, it has no effect (R306, R405). -/
def execDebugLock (s : State) : Host.Outcome State Fault Refusal := done (s.answered (s.debugLock 1))

/-- Change the TAP. -/
def State.mapJtag (s : State) (f : Jtag → Jtag) : State := { s with jtag := f s.jtag }

/-- A read of register space by a private instruction, as the Keeper reads it; nothing while D1 is off. -/
def State.jtagRead (s : State) (off len : Nat) : State :=
  if !s.isOn 1 then s.mapJtag fun j => { j with readBack := [] }
  else
    let a := s.regRead { unitRq 11 deviceWide false with addr := localAddr 3 off, len } off
    match a.2 with
    | .ok l => a.1.mapJtag fun j => { j with readBack := l }
    | .error _ => a.1.mapJtag fun j => { j with readBack := [] }

/-- A write of register space by a private instruction. -/
def State.jtagWrite (s : State) (off : Nat) (l : List Byte) : State :=
  if s.isOn 1 then (s.regWrite { unitRq 11 deviceWide true with addr := localAddr 3 off, len := l.length } off l).1
  else s

/-- An operation of the TAP out of reset, but for the manufacturing test mode. -/
def State.jtagOp (s : State) (op : JtagOp) : State :=
  match op with
  | .trstLow => s.tapReset
  | .trstHigh => s.mapJtag fun j => { j with inReset := false }
  | .instruction i => s.mapJtag fun j => { j with instruction := i }
  | .preload cells => if s.jtag.instruction = .samplePreload then s.mapJtag fun j => { j with cells } else s
  | .readRegister off len => s.jtagRead off len
  | .writeRegister off l => s.jtagWrite off l
  | .readSram off len =>
    s.mapJtag fun j => { j with readBack := (List.range len).map fun i => tget s.power.keeperSram (off + i) 0 }
  | .writeSram off l =>
    { s with power := { s.power with keeperSram :=
      (List.zip (List.range l.length) l).foldl (fun m e => tset m (off + e.1) e.2 0) s.power.keeperSram } }
  | .manufacturingTest => s

/-- The manufacturing test mode stands: `TEST_N` low and SECURE clear, in BOOT (R381). -/
def State.testMode (s : State) : Bool :=
  decide (s.power.dev = .boot) && !s.power.straps.testN && !s.objOn 0x7F00 5

/-- JTAG_ACCESS (R404, R405). What the test mode does, the spec does not say. -/
def execJtagAccess (op : JtagOp) (s : State) : Host.Outcome State Fault Refusal :=
  if s.tapHeld then done s
  else match op with
    | .trstLow => done (s.jtagOp .trstLow)
    | .trstHigh => done (s.jtagOp .trstHigh)
    | .manufacturingTest =>
      if !s.jtag.inReset && s.testMode then .fault .manufacturingTestMode else done s
    | o => done (if s.jtag.inReset then s else s.jtagOp o)

end Sys2Proof.Machine
end

