-- ==== Sys2Proof/Machine/Movers.lean ====
section
/-! DEFINITION. COPY and FILL on the State Mover and the Link Mover (Table QD-10, R126, R256, R257). -/

namespace Sys2Proof.Machine

/-- Field ranges of a COPY (Table QD-10). -/
def copyRanges (d : Desc) : Bad :=
  firstBad [
    need (decide (d.f 16 8 % 64 = 0)) 16, need (decide (d.f 24 8 % 64 = 0)) 24,
    need (decide (d.f 32 4 % 64 = 0) && decide (64 ≤ d.f 32 4)) 32,
    need (decide (d.f 36 4 % 64 = 0)) 36, need (decide (d.f 40 4 % 64 = 0)) 40,
    need (decide (1 ≤ d.f 44 4)) 44]

/-- Field ranges of a FILL (Table QD-10). -/
def fillRanges (d : Desc) : Bad :=
  firstBad [
    need (decide (d.f 16 8 % 8 = 0)) 16,
    need (decide (d.f 32 4 % 8 = 0) && decide (8 ≤ d.f 32 4)) 32]

/-- What a mover does next at byte `pos` of its work: the bytes of the chunk, where they come from (none: the
pattern of a FILL), where they go. -/
structure Chunk where
  len : Nat
  src : Option Nat
  dst : Nat
  deriving DecidableEq, Repr

/-- Bytes a COPY or FILL moves. -/
def moveTotal (d : Desc) : Nat := if d.opc = 0x40 then d.f 32 4 * d.f 44 4 else d.f 32 4

/-- The chunk at byte `pos`: within one row, at most `most` bytes. Addresses wrap at 2^64. -/
def chunkAt (d : Desc) (most pos : Nat) : Chunk :=
  let row := d.f 32 4
  if d.opc = 0x40 then
    let x := pos % row
    { len := Min.min most (row - x)
      src := some ((d.f 16 8 + pos / row * d.f 36 4 + x) % 2 ^ 64)
      dst := (d.f 24 8 + pos / row * d.f 40 4 + x) % 2 ^ 64 }
  else { len := Min.min most (row - pos), src := none, dst := (d.f 16 8 + pos) % 2 ^ 64 }

/-- The pattern of a FILL, n bytes. -/
def patternBytes (d : Desc) (n : Nat) : List Byte := (List.range n).map fun i => BitVec.ofNat 8 (d.f (24 + i % 8) 1)

/-- Bulk packets of the Link Mover: at most 1,024 data bytes each (R257). -/
def bulkPacket (s : State) (p : Part) (addr len : Nat) (data : List Byte) (tag : BitVec 16) : Packet :=
  { dest := BitVec.ofNat 7 (bits addr 59 53), src := s.chip, part := p, error := false,
    qos := BitVec.ofNat 4 (s.obj 0x3200 0x4B), tag, addr := BitVec.ofNat 56 (addr % 2 ^ 53),
    len := BitVec.ofNat 16 len, data, atomic := .add, operand := 0, compare := 0 }

/-- A mover's progress: done with this chunk, waiting for another device, or stopped on a code with bytes
written. -/
inductive Moved where
  | on
  | wait
  | stop (code written : Nat)
  deriving DecidableEq, Repr

/-- Write a chunk's data; the Link Mover sends it to another device in a BULK_WR. -/
def State.putChunk (s : State) (q m : Nat) (p : Part) (dst : Nat) (data : List Byte) : State × Moved :=
  if m = 9 && (s.localPlace dst).isNone then
    match s.sendRemote p (BitVec.ofNat 64 dst) (fun t => .bulkWr (bulkPacket s p dst data.length data t))
        (.moverWrite ⟨q % 32, by omega⟩ data.length) with
    | (s, true) => (s, .wait)
    | (s, false) => (s, .stop 0x0A01 0)
  else
    let w := s.mwrite m (partByte p) dst data
    match w.2.1 with
    | some c => (w.1, .stop c w.2.2)
    | none => (w.1, .on)

/-- Move a chunk. -/
def State.moveChunk (s : State) (q m : Nat) (p : Part) (d : Desc) (c : Chunk) : State × Moved :=
  match c.src with
  | none => s.putChunk q m p c.dst (patternBytes d c.len)
  | some a =>
    if m = 9 && (s.localPlace a).isNone then
      match s.sendRemote p (BitVec.ofNat 64 a) (fun t => .bulkRd (bulkPacket s p a c.len [] t))
          (.moverRead ⟨q % 32, by omega⟩ (BitVec.ofNat 64 c.dst)) with
      | (s, true) => (s, .wait)
      | (s, false) => (s, .stop 0x0A01 0)
    else
      let r := s.mread m (partByte p) a c.len
      match r.2 with
      | .error e => (r.1, .stop e 0)
      | .ok l => r.1.putChunk q m p c.dst l

/-- Chunk size: a 64-byte beat of the State Mover, a packet of the Link Mover (R257). -/
def chunkSize (m : Nat) : Nat := if m = 9 then 1024 else 64

/-- Go on from byte `pos` until the work is over or waits for another device; one packet is outstanding at a
time (DESIGN CHOICE, log 33). -/
def State.moveFrom (s : State) (q m : Nat) (p : Part) (d : Desc) : Nat → Nat → State
  | 0, pos => s.finish q 0 0 pos
  | n + 1, pos =>
    if moveTotal d ≤ pos then s.finish q 0 0 pos
    else
      let c := chunkAt d (chunkSize m) pos
      match s.moveChunk q m p d c with
      | (s, .on) => s.moveFrom q m p d n (pos + c.len)
      | (s, .wait) => s.mapRun q fun r => { r with phase := .waiting, rest := d.bytes, left := pos, remote := 1 }
      | (s, .stop code w) => s.finishFault q code (pos + w)

/-- Run a COPY or FILL from byte `pos`. -/
def State.move (s : State) (q pos : Nat) (d : Desc) : State :=
  s.moveFrom q (if s.qCons q = 5 then 9 else 8) ⟨s.qPart q % 8, by omega⟩ d (moveTotal d / 8 + 1) pos

/-- COPY (R126). -/
def execCopy (q : QueueId) (s : State) : Host.Outcome State Fault Refusal :=
  done (s.serve q (fun d => d.opc = 0x40) (fun _ d => copyRanges d) (fun t d => t.move q 0 d))

/-- FILL (R126). -/
def execFill (q : QueueId) (s : State) : Host.Outcome State Fault Refusal :=
  done (s.serve q (fun d => d.opc = 0x41) (fun _ d => fillRanges d) (fun t d => t.move q 0 d))

/-! ### Responses of other devices -/

/-- The Link Mover's run of a queue that waits for a response: its descriptor and position. -/
def State.moverWaits (s : State) (q : Nat) : Option (Desc × Nat) :=
  match (s.queue q).run with
  | some r => if r.phase = .waiting ∧ r.remote = 1 ∧ !r.asks then
      some ({ q, index := r.index, two := r.two, bytes := r.rest }, r.left) else none
  | none => none

/-- The Link Mover goes on at byte `pos`. -/
def State.moverOn (s : State) (q pos : Nat) (d : Desc) : State :=
  (s.mapRun q fun r => { r with rest := [], left := 0, remote := 0 }).move q pos d

/-- The Link Mover's run stops on a code. -/
def State.moverStop (s : State) (q code written : Nat) : State :=
  (s.mapRun q fun r => { r with rest := [], left := 0, remote := 0 }).finishFault q code written

/-- A descriptor's access is answered; its command goes on with it (log 145). -/
def State.unitAnswered (s : State) (q : Nat) (a : RemoteAnswer) : State :=
  s.mapRun q fun r => if r.asks then { r with answers := r.answers ++ [a], remote := 0 } else r

/-- The response of a remote request, or the error in its place, reaches the unit that waits (R256, R266). -/
def State.remoteDone (s : State) (use : RemoteUse) (r : Reply) : State :=
  match use with
  | .request id o => (s.respond id o r).reachPorts
  | .moverRead q dst =>
    (match s.moverWaits q with
     | none => s
     | some (d, pos) =>
       match r with
       | .error c => s.moverStop q c.toNat pos
       | .data l =>
         match s.putChunk q 9 ⟨s.qPart q % 8, by omega⟩ dst.toNat l with
         | (s, .on) => s.moverOn q (pos + l.length) d
         | (s, .wait) => s
         | (s, .stop c w) => s.moverStop q c (pos + w))
  | .moverWrite q len =>
    (match s.moverWaits q with
     | none => s
     | some (d, pos) =>
       match r with
       | .error c => s.moverStop q c.toNat pos
       | .data _ => s.moverOn q (pos + len) d)
  | .unit q addr len wr => s.unitAnswered q { addr, len, wr, reply := r }

end Sys2Proof.Machine
end

