-- ==== Sys2Proof/Machine/Trellis.lean ====
section
/-! DEFINITION. Trellis ports: control flits, replay, packets that arrive, credit audits, timeouts, port states,
group commits and recovery entries (R254 to R280). -/

namespace Sys2Proof.Machine

/-! ### Ports going down (R270) -/

/-- Neighbour byte of port l in object 0x3300:03; 0xFF for none (DESIGN CHOICE, log 34). -/
def State.setNeighbour (s : State) (l v : Nat) : State :=
  s.setObj 0x3300 3 (setBits (s.obj 0x3300 3) (8 * l + 7) (8 * l) v)

/-- The transaction tag of a request packet of this SX4. -/
def State.ownTag (s : State) (b : PacketBody) : Option (BitVec 16) :=
  match b with
  | .rdReq p => if p.src = s.chip then some p.tag else none
  | .wrReq p => if p.src = s.chip then some p.tag else none
  | .atReq p => if p.src = s.chip then some p.tag else none
  | .bulkRd p => if p.src = s.chip then some p.tag else none
  | .bulkWr p => if p.src = s.chip then some p.tag else none
  | _ => none

/-- Take a remote request off the list of those that wait. -/
def State.takeRemote (s : State) (tag : BitVec 16) : State :=
  { s with remote := s.remote.filter fun x => decide (x.tag ≠ tag) }

/-- A local request whose packet is discarded gets an error response with 0x0A01; it raises no fault. -/
def State.dropOwn (s : State) (tag : BitVec 16) : State :=
  match s.remote.find? fun x => decide (x.tag = tag) with
  | some x => (s.takeRemote tag).remoteDone x.use (.error 0x0A01)
  | none => s

/-- Port l's receive buffers are no more: a packet forwarded from them stands in none. -/
def Queued.forget (l : Nat) (x : Queued) : Queued := if x.origin = some l then { x with origin := none } else x

/-- Port l's receive buffers are no more: what was forwarded from them holds no credit of theirs. -/
def State.forgetBuffers (s : State) (l : Nat) : State :=
  { s with links := s.links.map fun e => (e.1, { e.2 with queued := e.2.queued.map (Queued.forget l) }) }

/-- A port leaves its state: replay buffer and queued packets are discarded, and with them leave the receive buffers that
they stood in (R261, R270). -/
def State.linkLeaves (s : State) (l : Nat) (next : LinkState) : State :=
  let s := s.forgetBuffers l
  let k := s.link l
  let tags := ((k.replay.map fun x => x.body) ++ k.queued.map fun x => x.body).filterMap s.ownTag
  let s := k.queued.foldl State.leaveOrigin ((s.setLink l { state := next }).setNeighbour l 0xFF)
  tags.foldl State.dropOwn s

/-- A port goes DOWN with 0x0A01 (R270, R280). -/
def State.linkFails (s : State) (l : Nat) : State := (s.linkLeaves l .down).raise 0x0A01 deviceWide l

/-! ### Codewords and control flits (R254, R255, R258 to R260) -/

/-- CODEWORD_UNCORRECTABLE (R254). -/
def execCodewordUncorrectable (l : Port) (s : State) : Host.Outcome State Fault Refusal :=
  done (s.bump 0x7052 (l + 1))

/-- Resend every unacknowledged flit from the oldest; a ninth call for a replay after eight without `ACK`
advancing takes the port DOWN (R259, R260, DEDUCED, log 35). -/
def State.replayLink (s : State) (l : Nat) : State :=
  let k := s.link l
  if k.replay.isEmpty then s
  else if k.replays ≥ 8 then (s.raise 0x0A02 deviceWide l).linkFails l
  else
    let s := (s.setLink l { k with replays := k.replays + 1 }).bump 0x7050 (l + 1)
    { s with outputs := { s.outputs with links := s.outputs.links ++ k.replay.map fun x => (l, x) } }

/-- A replay buffer after n more flits are acknowledged (R259). -/
def trimReplay : Nat → List Sent → List Sent
  | _, [] => []
  | n, x :: r =>
    let left := x.body.flits - x.skip
    if left ≤ n then trimReplay (n - left) r else { x with skip := x.skip + n } :: r

/-- `ACK` = a: the flits before a leave the replay buffer; an `ACK` beyond what was sent says nothing. -/
def Link.takeAck (k : Link) (a : BitVec 12) : Link :=
  let n := (a - k.ack).toNat
  if n = 0 || n > k.unacked then k
  else { k with ack := a, replays := 0, lastNak := none, replay := trimReplay n k.replay }

/-- Returned-credit counts: what came back since the last ones seen (R255, R261). -/
def Link.takeCredits (k : Link) (ret : List (BitVec 16)) : Link :=
  { k with
    credits := (List.range 4).map fun v => vcGet k.credits v + (ret.getD v 0 - k.seen.getD v 0).toNat
    seen := (List.range 4).map fun v => ret.getD v 0 }

/-- A control flit at a port that is UP; a `NAK` said again for the same flit changes nothing (R255). -/
def State.flitUp (s : State) (l : Nat) (f : ControlFlit) : State :=
  let k := ((s.link l).takeAck f.ack).takeCredits f.returned
  let nak := f.nak && decide (k.lastNak ≠ some f.ack)
  let s := s.setLink l (if nak then { k with lastNak := some f.ack } else k)
  let s := if nak then s.replayLink l else s
  s.drainLink l (s.link l).queued.length

/-- D of a port: half of 64 values averaged, to the nearest cycle; the spec does not break a tie (R268, DESIGN CHOICE, log 4). -/
def State.linkDelay (s : State) (probes : List Nat) : State × Nat :=
  let sum := (probes.take 64).sum
  if sum % 128 = 64 then
    let f := s.fresh
    (f.1, sum / 128 + (Config.freeWord f.2).toNat % 2)
  else (s, (sum + 64) / 128)

/-- The port enters UP: sequence numbers 0 and full credits (R267). -/
def State.linkUp (s : State) (l : Nat) (peer : BitVec 7 × BitVec 3) (probes : List Nat) : State :=
  let d := s.linkDelay probes
  (d.1.setObj 0x3300 (0x10 + l) d.2).setLink l { state := .up, peer := some peer }

/-- Echoes of own probes that a control flit brings: round trip less the hold, by the probe's cycle count, each once
(R255, R268). -/
def Link.takeEchoes (k : Link) (f : ControlFlit) : Link :=
  let take (t : Table Nat) (e : Nat × Nat) : Table Nat :=
    if decide (e.1 ∈ k.asked) && !(t.any fun x => decide (x.1 = e.1)) then t ++ [(e.1, f.arrival - e.1 - e.2)] else t
  { k with probes := f.echoes.foldl take k.probes }

/-- The far side's probe is echoed in the codeword it is met in, so with a hold of 0, and once (R255, R268; DESIGN CHOICE,
log 144). -/
def State.echoProbe (s : State) (l : Nat) (f : ControlFlit) : State :=
  let k := s.link l
  match f.probe with
  | some c =>
    if c ∈ k.heard then s
    else (s.setLink l { k with heard := k.heard ++ [c] }).sendControl l { k.flit false with echoes := [(c, 0)] }
  | none => s

/-- Both sides have exchanged what R267 names. -/
def Link.exchanged (k : Link) : Bool :=
  k.peer.isSome && decide (k.peerSizes.length = 4) && decide (64 ≤ k.probes.length) && decide (64 ≤ k.heard.length)

/-- A control flit at a port in INIT: the far side's identity and buffer sizes, its probe, and echoes of the own ones (R267
to R269). -/
def State.flitInit (s : State) (l : Nat) (f : ControlFlit) : State :=
  let known := (s.link l).peer.isSome
  let k := (s.link l).takeEchoes f
  let s := (s.setLink l { k with
    peer := f.init <|> k.peer, peerSizes := if f.sizes.isEmpty then k.peerSizes else f.sizes }).echoProbe l f
  match (s.link l).peer with
  | none => s
  | some (c, n) =>
    let s := s.setNeighbour l c.toNat
    if c = s.chip then
      (if known then s
      else
        let f := s.fresh
        f.1.raise 0x0A01 deviceWide l 0 (Config.freeWord f.2).toNat)
    else if (s.link l).exchanged then s.linkUp l (c, n) ((s.link l).probes.map (·.2))
    else s

/-- CONTROL_FLIT (R255, R267), taken at the codeword boundary that it arrives at. -/
def execControlFlit (l : Port) (f : ControlFlit) (s : State) : Host.Outcome State Fault Refusal :=
  let s := s.advance f.arrival
  done (match (s.link l).state with
  | .up => s.flitUp l f
  | .init => s.flitInit l f
  | _ => s)

/-- REPLAY_TIMEOUT: `ACK` has not advanced for 4 µs while flits are outstanding (R259). -/
def execReplayTimeout (l : Port) (s : State) : Host.Outcome State Fault Refusal :=
  done (if (s.link l).state = .up then s.replayLink l else s)

/-! ### Requests that arrive (R231, R256, R263, R264) -/

/-- A remote request as the matrix judges it: by M9 for its partition, with its origin chip (R231). -/
def arrivalRq (p : Packet) : Rq :=
  { master := 9, who := partByte p.part, id := (Config.unitId 9).toNat, origin := some p.src,
    addr := 2 ^ 60 + p.addr.toNat % 2 ^ 53, len := p.len.toNat, rd := true, wr := true }

/-- A request for this SX4 is served by M9, in its turn at its port, and answered; while the matrix's domain, M9's own, is
not on, M9 issues nothing (R256, R362). -/
def State.serveArrival (s : State) (b : PacketBody) (p : Packet) (op : Op) : State :=
  if s.isOn 1 then
    let r := arrivalRq p
    let a := (s.unitTransfer r r.addr r.len).serveOp r op
    a.1.sendAnswer b a.2
  else s

/-- RD_REQ (R256). -/
def execRdReq (l : Port) (seq : BitVec 12) (p : Packet) (s : State) : Host.Outcome State Fault Refusal :=
  done (s.onPacket l seq (.rdReq p) fun s => s.serveArrival (.rdReq p) p .read)

/-- WR_REQ (R256). -/
def execWrReq (l : Port) (seq : BitVec 12) (p : Packet) (s : State) : Host.Outcome State Fault Refusal :=
  done (s.onPacket l seq (.wrReq p) fun s => s.serveArrival (.wrReq p) p (.write p.data))

/-- AT_REQ (R96, R256). -/
def execAtReq (l : Port) (seq : BitVec 12) (p : Packet) (s : State) : Host.Outcome State Fault Refusal :=
  done (s.onPacket l seq (.atReq p) fun s => s.serveArrival (.atReq p) p (.atomic p.atomic p.operand p.compare))

/-- BULK_RD, answered with RD_RSP (R256). -/
def execBulkRd (l : Port) (seq : BitVec 12) (p : Packet) (s : State) : Host.Outcome State Fault Refusal :=
  done (s.onPacket l seq (.bulkRd p) fun s => s.serveArrival (.bulkRd p) p .read)

/-- BULK_WR, answered with WR_RSP (R256). -/
def execBulkWr (l : Port) (seq : BitVec 12) (p : Packet) (s : State) : Host.Outcome State Fault Refusal :=
  done (s.onPacket l seq (.bulkWr p) fun s => s.serveArrival (.bulkWr p) p (.write p.data))

/-! ### Responses that arrive (R256, R264, R266) -/

/-- What a response packet answers: its data, or the code in `LEN` under the error bit (Table TL-2). -/
def replyOf (p : Packet) : Reply := if p.error then .error p.len else .data p.data

/-- A response: to the unit that waits under its tag, counted in 0x7054:02 when none does. -/
def State.response (s : State) (p : Packet) : State :=
  match s.remote.find? fun x => decide (x.tag = p.tag) with
  | some x => (s.takeRemote p.tag).remoteDone x.use (replyOf p)
  | none => s.bump 0x7054 2

/-- RD_RSP (R256). -/
def execRdRsp (l : Port) (seq : BitVec 12) (p : Packet) (s : State) : Host.Outcome State Fault Refusal :=
  done (s.onPacket l seq (.rdRsp p) fun s => s.response p)

/-- WR_RSP (R256). -/
def execWrRsp (l : Port) (seq : BitVec 12) (p : Packet) (s : State) : Host.Outcome State Fault Refusal :=
  done (s.onPacket l seq (.wrRsp p) fun s => s.response p)

/-- AT_RSP (R256). -/
def execAtRsp (l : Port) (seq : BitVec 12) (p : Packet) (s : State) : Host.Outcome State Fault Refusal :=
  done (s.onPacket l seq (.atRsp p) fun s => s.response p)

/-- REMOTE_TIMEOUT: an error response with 0x0A04, the fault, and a tag not reused for twice the timeout (R266,
R280). -/
def execRemoteTimeout (tag : BitVec 16) (s : State) : Host.Outcome State Fault Refusal :=
  done (match s.remote.find? fun x => decide (x.tag = tag) with
  | none => s
  | some x =>
    let s := s.takeRemote tag
    let till := s.cycle + 2 * s.obj 0x3300 5 * 1000
    let s := { s with retired := (tag, till) :: s.retired.filter fun e => decide (s.cycle < e.2) }
    (s.raise 0x0A04 (partByte x.part) x.port x.addr.toNat x.dest.toNat).remoteDone x.use (.error 0x0A04))

/-! ### Group commits (R273 to R276) -/

/-- A vote counts once. -/
def State.takeVote (s : State) (m : StepMsg) : State :=
  let st := s.step1 m.part
  let v := (m.src, m.epoch)
  if v ∈ st.votes then s else (s.setStep m.part { st with votes := st.votes ++ [v] }).tally m.part

/-- VOTE (R274). -/
def execVote (l : Port) (seq : BitVec 12) (m : StepMsg) (s : State) : Host.Outcome State Fault Refusal :=
  done (s.onPacket l seq (.vote m) fun s => s.takeVote m)

/-- A decision for the open step's epoch. -/
def State.takeDecision (s : State) (m : StepMsg) : State :=
  let st := s.step1 m.part
  if st.isOpen && decide (st.epoch = m.epoch) then s.decideStep m.part m.decision else s

/-- DECIDE (R275). -/
def execDecide (l : Port) (seq : BitVec 12) (m : StepMsg) (s : State) : Host.Outcome State Fault Refusal :=
  done (s.onPacket l seq (.decide m) fun s => s.takeDecision m)

/-- The coordinator decides for its group; a participant acts for itself. -/
def State.resolveStep (s : State) (p : Nat) (d : Decision) : State :=
  if (s.step1 p).coordinator = s.chip then s.decideGroup p d else s.decideStep p d

/-- The coordinator of partition p tells every other participant that the step of epoch e is void (R274). -/
def State.sendVoids (s : State) (p : Nat) (e : BitVec 48) : State :=
  if s.obj 0x3300 (0x38 + p) = s.chip.toNat then
    (groupChips (s.obj 0x3300 (0x30 + p))).foldl (fun s c =>
      if c = s.chip.toNat then s else s.sendRouted (.decide (s.stepMsg p c e .void))) s
  else s

/-- The answer to a query for an epoch, and what it makes this SX4 do: its outcome; UNDECIDED after its vote; a
participant that has not voted, or a coordinator that has not decided, takes VOID (R274, R276). -/
def State.takeQuery (s : State) (m : StepMsg) : State × Decision :=
  let p := m.part.val
  let st := s.step1 p
  let old := match st.outcome with
    | some (e, d) => if e = m.epoch then some d else none
    | none => none
  match old with
  | some d => (s, d)
  | none =>
    if st.isOpen && decide (st.epoch = m.epoch) then
      if st.judged.isSome && decide (st.coordinator ≠ s.chip) then (s, .undecided)
      else (s.resolveStep p .void, .void)
    else if st.isOpen then (s, .void)
    else ((s.setStep p { st with outcome := some (m.epoch, .void) }).sendVoids p m.epoch, .void)

/-- QUERY: answered to its sender (R276). -/
def execQuery (l : Port) (seq : BitVec 12) (m : StepMsg) (s : State) : Host.Outcome State Fault Refusal :=
  done (s.onPacket l seq (.query m) fun s =>
    let a := s.takeQuery m
    a.1.sendRouted (.answer (a.1.stepMsg m.part m.src.toNat m.epoch a.2)))

/-- An answer to an in-doubt participant: FLIP or VOID is taken at once; UNDECIDED from every other participant is
VOID (R276). -/
def State.takeAnswer (s : State) (m : StepMsg) : State :=
  let p := m.part.val
  let st := s.step1 p
  match st.judged with
  | none => s
  | some j =>
    if !j.inDoubt || decide (j.epoch ≠ m.epoch) then s
    else match m.decision with
      | .flip => s.resolveStep p .flip
      | .void => s.resolveStep p .void
      | .undecided =>
        let seen := m.src :: j.answers.filter fun c => decide (c ≠ m.src)
        if (groupChips st.group).all fun c => decide (c = s.chip.toNat) || decide (BitVec.ofNat 7 c ∈ seen)
        then s.resolveStep p .void
        else s.setStep p { st with judged := some { j with answers := seen } }

/-- ANSWER (R276). -/
def execAnswer (l : Port) (seq : BitVec 12) (m : StepMsg) (s : State) : Host.Outcome State Fault Refusal :=
  done (s.onPacket l seq (.answer m) fun s => s.takeAnswer m)

/-- VOTE_WINDOW_EXPIRE: without every vote the coordinator decides VOID (R274). -/
def execVoteWindowExpire (p : Part) (s : State) : Host.Outcome State Fault Refusal :=
  done (if (s.step1 p).window then s.decideGroup p .void else s)

/-- DECISION_DEADLINE: a participant without a decision is in doubt and queries every other one (R276). -/
def State.inDoubt (s : State) (p : Nat) : State :=
  let st := s.step1 p
  match st.judged with
  | none => s
  | some j =>
    if j.inDoubt then s
    else
      let s := s.setStep p { st with judged := some { j with inDoubt := true } }
      (groupChips st.group).foldl (fun s c =>
        if c = s.chip.toNat then s else s.sendRouted (.query (s.stepMsg p c j.epoch .undecided))) s

/-- DECISION_DEADLINE (R276). -/
def execDecisionDeadline (p : Part) (s : State) : Host.Outcome State Fault Refusal := done (s.inDoubt p)

/-- QUERY_TIMEOUT: without a FLIP or VOID an in-doubt participant takes VOID (R276). -/
def execQueryTimeout (p : Part) (s : State) : Host.Outcome State Fault Refusal :=
  done (match (s.step1 p).judged with
  | some j => if j.inDoubt then s.resolveStep p .void else s
  | none => s)

/-! ### Credit audits (R262) -/

/-- Whether an AUDIT's counts balance: H + B + (R − R′) = C modulo 2^16 (R262). -/
def Link.balances (k : Link) (m : AuditMsg) : Bool :=
  (List.range 4).all fun v =>
    decide (m.held.getD v 0 + BitVec.ofNat 16 (vcGet k.occupied v) + (k.returned.getD v 0 - m.returned.getD v 0) =
      BitVec.ofNat 16 (vcSize v))

/-- AUDIT: a pass is counted, a mismatch raises 0x0A03 and takes the port DOWN (R262). -/
def execAudit (l : Port) (seq : BitVec 12) (m : AuditMsg) (s : State) : Host.Outcome State Fault Refusal :=
  done (s.onPacket l seq (.audit m) fun s =>
    if (s.link l).balances m then s.bump 0x7053 (l + 1)
    else (s.raise 0x0A03 deviceWide l).linkFails l)

/-- AUDIT_SEND: the counts are taken as the packet goes out (R262). -/
def execAuditSend (l : Port) (s : State) : Host.Outcome State Fault Refusal :=
  done (if (s.link l).state = .up then s.sendOn l (.audit { held := [], returned := [] }) else s)

/-! ### Port states (R267, R269, R270, Table TL-5) -/

/-- Port l is enabled in object 0x3300:01. -/
def State.linkEnabled (s : State) (l : Nat) : Bool := (s.obj 0x3300 1).testBit l

/-- An enable bit changes: set, the port starts training, with its domain on (Table PW-2); cleared, a port in UP goes DOWN without a fault, one in
TRAINING or INIT is DISABLED (DESIGN CHOICE, log 34). -/
def State.enableLink (s : State) (l : Nat) (was on : Bool) : State :=
  if was = on then s
  else if on then if s.isOn (46 + l / 4) then s.linkLeaves l .training else s
  else match (s.link l).state with
    | .up => s.linkLeaves l .down
    | .training => s.linkLeaves l .disabled
    | .init => s.linkLeaves l .disabled
    | _ => s

/-- A write of object 0x3300:01. -/
def State.portEnable (s : State) (v : Nat) : State × Nat :=
  let old := s.obj 0x3300 1
  ((List.range 8).foldl (fun s l => s.enableLink l (old.testBit l) (v.testBit l)) (s.setObj 0x3300 1 v), 0)

/-- PORT_ENABLE (R267, R270). -/
def execPortEnable (mask : BitVec 8) (s : State) : Host.Outcome State Fault Refusal :=
  done (s.answered (s.portEnable mask.toNat))

/-- The cycle counts of the 64 delay probes: the codeword boundaries from cycle c on (R267, R268; DESIGN CHOICE, log 144). -/
def probeCounts (c : Nat) : List Nat := (List.range 64).map fun i => c + 128 * i / 5

/-- The control flit of INIT with a delay probe: chip ID, port number, buffer sizes (R267). -/
def State.initFlit (s : State) (l : Port) (count : Nat) : ControlFlit :=
  { (s.link l).flit false with
    init := some (s.chip, BitVec.ofNat 3 l), sizes := (List.range 4).map vcSize, probe := some count, arrival := 0 }

/-- A port enters INIT and sends its identity, its buffer sizes and 64 delay probes (R267). -/
def State.enterInit (s : State) (l : Port) : State :=
  let counts := probeCounts s.cycle
  counts.foldl (fun s c => s.sendControl l (s.initFlit l c)) (s.setLink l { state := .init, asked := counts })

/-- LINK_TRAINED: TRAINING to INIT (R267). -/
def execLinkTrained (l : Port) (s : State) : Host.Outcome State Fault Refusal :=
  done (if (s.link l).state = .training then s.enterInit l else s)

/-- TRAINING_TIMEOUT: DOWN with 0x0A01 (R267). -/
def execTrainingTimeout (l : Port) (s : State) : Host.Outcome State Fault Refusal :=
  done (if (s.link l).state = .training then s.linkFails l else s)

/-- LOCK_LOSS: a port in UP goes DOWN with 0x0A01 (R270). -/
def execLockLoss (l : Port) (s : State) : Host.Outcome State Fault Refusal :=
  done (if (s.link l).state = .up then s.linkFails l else s)

/-- RETRAIN: a port in DOWN that is enabled trains again (Table TL-5). -/
def execRetrain (l : Port) (s : State) : Host.Outcome State Fault Refusal :=
  done (if (s.link l).state = .down && s.linkEnabled l then s.linkLeaves l .training else s)

/-! ### Recovery (R279) -/

/-- Write of object 0x3300:21: abort 0x09 unless in CONFIG, in recovery mode, for a Free entry with no larger
`GEN`. -/
def State.recoveryEntry (s : State) (i g : Nat) : State × Nat :=
  if decide (s.power.dev = .config) && s.objOn 0x3300 0x20 && decide (i < Config.streamCount) &&
      s.streams.tableSet && decide ((s.entry i).life = .free) && decide ((s.entry i).gen ≤ g) then
    (s.setEntry i { s.entry i with life := .sealed, gen := g }, 0)
  else (s, 0x09)

/-- RECOVERY_ENTRY (R279). -/
def execRecoveryEntry (index gen : W32) (s : State) : Host.Outcome State Fault Refusal :=
  done (s.answered (s.recoveryEntry index.toNat gen.toNat))

end Sys2Proof.Machine
end

