-- ==== Sys2Proof/Machine/Power.lean ====
section
/-! DEFINITION. Power domains: requests, the drain, switching off and on (R360 to R366). -/

namespace Sys2Proof.Machine

/-! ### What a domain holds (Table PW-1) -/

/-- Spans of memory of a domain: key and length (Table PW-2). -/
def domainSpans (d : Nat) : List (Nat × Nat) :=
  if d < 2 then []
  else if d < 38 then
    let b := (d - 2) / 9
    match (d - 2) % 9 with
    | 0 => [(memKey (20 + b) 0, 2 ^ 18)]
    | 1 => [(memKey (16 + b) 0, 2 ^ 18)]
    | 2 => [(memKey (12 + b) 0, 3 * 2 ^ 19)]
    | 7 => [(memKey (4 + b) 0, 2 ^ 21)]
    | 8 => [(memKey (4 + b) (2 ^ 21), 2 ^ 21)]
    | n => [(memKey (8 + b) ((n - 3) * 2 ^ 20), 2 ^ 20)]
  else if d < 42 then [(memKey 1 ((d - 38) * (3 * 2 ^ 20)), 3 * 2 ^ 20)]
  else []

/-- Zero the memories of a domain, with their check bits (R366). -/
def State.zeroDomain (s : State) (d : Nat) : State :=
  (domainSpans d).foldl (fun s x => (s.zeroSpan x.1 x.2).eccClear x.1 x.2) s

/-- Bed whose domain d is, with its place among the bed's nine. -/
def bedOfDomain (d : Nat) : Option (Nat × Nat) :=
  if 2 ≤ d ∧ d < 38 then some ((d - 2) / 9, (d - 2) % 9) else none

/-- The logic of a domain is reset: contexts FREE, counters zero and the Imposer's chains closed, table slots invalid,
cache lines invalid, Trellis ports, the host port's registers, what trace holds (R204, R243, R366, R401). -/
def State.resetLogic (s : State) (d : Nat) : State :=
  match bedOfDomain d with
  | some (b, 0) =>
    { s with contexts := tdrop s.contexts (64 * b) 64, counters := tdrop s.counters (64 * b) 64,
             added := tdrop s.added (64 * b) 64, lastIssue := tset s.lastIssue b 63 63,
             chains := tset s.chains b none none }
  | some (b, 1) => { s with tables := tdrop s.tables (8 * b) 8 }
  | some _ => s
  | none =>
    if d = 42 || d = 43 then s.cacheDrop (d - 42)
    else if d = 46 || d = 47 then { s with links := tdrop s.links (4 * (d - 46)) 4 }
    else if d = 48 then s.resetHostPort
    else if d = 49 then s.discardTrace
    else s

/-! ### Requests (R361) -/

/-- The quarter of a domain holds a `VALID` slot. -/
def State.quarterHeld (s : State) (d : Nat) : Bool :=
  (List.range 8).any fun p => (s.validSlots p).any fun k => decide (38 + s.slotOff p k / (3 * 2 ^ 20) = d)

/-- Every context of a bed is FREE. -/
def State.bedFree (s : State) (b : Nat) : Bool := (List.range 64).all fun k => decide ((s.context (64 * b + k)).state = .free)

/-- Two channels are populated, so that D45 is off after training (R361). -/
def State.twoChannels (s : State) : Bool := decide (s.obj 0x3400 1 = 3)

/-- Table PW-1 allows domain d to be switched off now. -/
def State.mayGoOff (s : State) (d : Nat) : Bool :=
  match bedOfDomain d with
  | some (b, 0) => (List.range 8).all (fun i => decide (s.domain (bedDomain b + 1 + i) = .off)) && s.bedFree b
  | some _ => true
  | none =>
    if d = 1 || d = 44 then false
    else if d < 42 then !s.quarterHeld d
    else if d = 42 then s.isOn 43
    else if d = 43 then s.isOn 42
    else if d = 45 then s.twoChannels
    else if d = 46 then decide (s.obj 0x3300 1 % 16 = 0)
    else if d = 47 then decide (s.obj 0x3300 1 / 16 % 16 = 0)
    else true

/-- Domain d may be switched on now: no domain of a bed while its D2 + 9b is off. -/
def State.mayGoOn (s : State) (d : Nat) : Bool :=
  match bedOfDomain d with
  | some (_, 0) => true
  | some (b, _) => decide (s.domain (bedDomain b) ≠ .off)
  | none => decide (d ≠ 45) || !s.twoChannels

/-- A value is in the range of object 0x2200:d + 1. -/
def domainValueOk (d v : Nat) : Bool :=
  decide (v ≤ 2) && (decide (v ≠ 2) || (decide (38 ≤ d) && decide (d ≤ 41))) && (decide (d ≠ 0) || decide (v = 1))

/-- The PCIe link goes down without 0x0D01 (Table PW-1). -/
def State.pcieOff (s : State) (d : Nat) : State := if d = 48 then s.linkOff else s

/-- A Shared Cache half went off or came on: the lines that stay valid take their new places (R242, R243). -/
def State.cacheMoved (s : State) (d : Nat) : State := if d = 42 || d = 43 then s.cacheRemap else s

/-- A domain is clamped off: it loses its contents, a Shared Cache half after its dirty lines have been written back
(R243). -/
def State.clampOff (s : State) (d : Nat) : State :=
  ((((s.pcieOff d).resetLogic d).zeroDomain d).setDomain d .off).cacheMoved d

/-- Domain of the target of an address; none where no domain of Table PW-1 holds it alone. -/
def State.targetDomain (s : State) (addr : Nat) : Option Nat :=
  match s.localPlace addr with
  | none => none
  | some (r, off) =>
    if r = 1 then some (38 + off % 2 ^ 24 / (3 * 2 ^ 20)) else if r = 3 then some 1 else memDomain r off

/-- Raise a domain's fence; requests that wait at its targets were admitted before it (R240, R362). -/
def State.fence (s : State) (d : Nat) (retain : Bool) : State :=
  let rs := s.matrix.requests.map fun r =>
    if s.targetDomain r.addr.toNat = some d then { r with admitted := true } else r
  { s with matrix := { s.matrix with requests := rs } }.setDomain d (.draining retain)

/-- What object 0x2200:d + 1 reads of a domain that a request leaves as it is. -/
def DomainState.request : DomainState → Nat
  | .off => 0
  | .retained => 2
  | _ => 1

/-- Table PW-1 still allows an accepted request when its turn comes. -/
def State.mayDo (s : State) (d v : Nat) : Bool :=
  if v = 0 then s.domain d = .off || s.mayGoOff d else if v = 1 then s.mayGoOn d else true

/-- Carry out a request; true when the domain is now switching. A request that Table PW-1 no longer allows when its turn
comes is dropped, and object 0x2200 reads what the domain is (R361, DESIGN CHOICE, log 142). -/
def State.switchDomain (s : State) (d v : Nat) : State × Bool :=
  if !s.mayDo d v then (s.setObj 0x2200 (d + 1) (s.domain d).request, false)
  else match s.domain d, v with
  | .on, 0 => (s.fence d false, true)
  | .on, 2 => (s.fence d true, true)
  | .retained, 0 => (s.clampOff d, false)
  | .off, 2 => (s.setDomain d .retained, false)
  | .off, 1 => (s.setDomain d (.switchingOn false), true)
  | .retained, 1 => (s.setDomain d (.switchingOn true), true)
  | _, _ => (s, false)

/-- A domain is switching. -/
def State.switching (s : State) : Bool :=
  s.power.domains.any fun e => match e.2 with
    | .draining _ => true
    | .switchingOn _ => true
    | _ => false

/-- Carry out accepted requests, one at a time in their order (R361). -/
def State.pump (s : State) : Nat → State
  | 0 => s
  | n + 1 =>
    if s.switching then s
    else match s.power.domainReqs with
      | [] => s
      | (d, v) :: rest =>
        (({ s with power := { s.power with domainReqs := rest } }.switchDomain d v).1).pump n

/-- Go on with the requests that wait. -/
def State.pumpAll (s : State) : State := s.pump (s.power.domainReqs.length + 1)

/-- A write of object 0x2200:d + 1 (R361), in the order of Table KP-5. -/
def State.domainWrite (s : State) (d v : Nat) : State × Nat :=
  if !domainValueOk d v then (s, 0x06)
  else if (v = 1 && !s.mayGoOn d) || (v = 0 && s.isOn d && !s.mayGoOff d) ||
      (v = 0 && decide (s.domain d = .retained) && !s.mayGoOff d) then (s, 0x09)
  else if s.obj 0x2201 (d + 1) = 3 then (s, 0x0B)
  else
    let s := s.setObj 0x2200 (d + 1) v
    ({ s with power := { s.power with domainReqs := s.power.domainReqs ++ [(d, v)] } }.pumpAll, 0)

/-- DOMAIN_OFF (R361, R362). -/
def execDomainOff (d : DomainId) (s : State) : Host.Outcome State Fault Refusal := done (s.answered (s.domainWrite d 0))

/-- DOMAIN_RETAIN (R361). -/
def execDomainRetain (d : DomainId) (s : State) : Host.Outcome State Fault Refusal :=
  done (s.answered (s.domainWrite d 2))

/-- DOMAIN_ON (R361, R366). -/
def execDomainOn (d : DomainId) (s : State) : Host.Outcome State Fault Refusal := done (s.answered (s.domainWrite d 1))

/-! ### The drain (R362, R363) -/

/-- Domain of a master (Table MM-2, Table PW-1). -/
def masterDomain (m : Nat) : Nat :=
  if m < 4 then bedDomain m
  else if m < 8 then bedDomain (m - 4)
  else if m = 10 then 48
  else if m = 11 then 0
  else if m = 12 then 49
  else 1

/-- A waiting request that holds up the drain of a domain: at one of its targets, or its master's at a local one. -/
def State.holdsUp (s : State) (d : Nat) (r : Request) : Bool :=
  decide (s.targetDomain r.addr.toNat = some d) ||
    (decide (masterDomain r.master = d) && decide (r.port.target ≠ 7) && decide (r.port.target ≠ 8))

/-- A queue's running descriptor uses a domain: its consumer's, or one that a `MATMUL` needs (R162, R195). -/
def State.runUses (s : State) (d q : Nat) : Bool :=
  match (s.queue q).run with
  | none => false
  | some r => decide (s.unitDomain q = d) || decide (d ∈ r.uses)

/-- The drain of a domain is complete (R362 step 2). -/
def State.drained (s : State) (d : Nat) : Bool :=
  (s.matrix.requests.all fun r => !s.holdsUp d r) &&
    (s.matrix.responses.all fun r => decide (masterDomain r.origin.master ≠ d)) &&
    (List.range 32).all fun q => !s.runUses d q

/-- Requests that a drain still waits for. -/
def State.outstanding (s : State) (d : Nat) : Nat := (s.matrix.requests.filter (s.holdsUp d)).length

/-- A drained domain is clamped; the Keeper goes on with its requests (R362). -/
def State.drainEnds (s : State) (d : Nat) : State :=
  if s.power.rest = .none && s.drained d then
    match s.domain d with
    | .draining true => (s.setDomain d .retained).pumpAll
    | .draining false => (s.clampOff d).pumpAll
    | _ => s
  else s

/-- 0x0E01 for a domain (R392). -/
def State.fenceFault (s : State) (d : Nat) : State := s.raise 0x0E01 deviceWide d 0 (s.outstanding d)

/-- DRAIN_TIMEOUT: 0x0E01, and the switch-off is abandoned (R363). -/
def execDrainTimeout (d : DomainId) (s : State) : Host.Outcome State Fault Refusal :=
  done (match s.domain d with
  | .draining _ =>
    if s.power.rest = .none && s.power.warm = .none && !s.drained d then
      (((s.fenceFault d).setDomain d .on).setObj 0x2200 (d + 1) 1).pumpAll
    else s
  | _ => s)

/-- Enabled ports among `ls` begin training (Table PW-2, Table PW-6). -/
def State.trainPorts (s : State) (ls : List Nat) : State :=
  ls.foldl (fun s l => if s.linkEnabled l then s.setLink l { state := .training } else s) s

/-- The domain is on: memories zeroed unless they come from retention, logic reset, fence lifted (R366). Trellis ports and
the PCIe link begin training, and trace resumes with a timestamp (Table PW-2, R401). -/
def State.domainUp (s : State) (d : Nat) (fromRetention : Bool) : State :=
  let s := if fromRetention then s else (s.resetLogic d).zeroDomain d
  let s := (s.setDomain d .on).cacheMoved d
  if d = 48 then s.setObj 0x3500 3 1
  else if d = 49 then s.stamp
  else if d = 46 || d = 47 then s.trainPorts ((List.range 4).map (4 * (d - 46) + ·))
  else s

/-- SWITCH_ON_COMPLETE (R366). -/
def execSwitchOnComplete (d : DomainId) (s : State) : Host.Outcome State Fault Refusal :=
  done (match s.domain d with
  | .switchingOn r => (s.domainUp d r).pumpAll
  | _ => s)

end Sys2Proof.Machine
end

