-- ==== Sys2Proof/Machine/Rest.lean ====
section
/-! DEFINITION. Rest: its request, entry, save area, wake events and the wake (R371 to R377). -/

namespace Sys2Proof.Machine

/-! ### Requests (R371) -/

/-- An address lies in a Bed Store of this SX4. -/
def State.inBedStore (s : State) (a : Nat) : Bool :=
  match s.localPlace a with
  | some (r, _) => decide (4 ≤ r) && decide (r ≤ 7)
  | none => false

/-- A queue holds an entry while its ring or completion ring lies in regions 4 to 7. -/
def State.bedRingHeld (s : State) (q : Nat) : Bool :=
  decide ((s.queue q).tail ≠ (s.queue q).head) &&
    ((decide (s.qRing q ≠ 0) && s.inBedStore (s.qRing q)) ||
     (decide (s.qCompletion q ≠ 0) && s.inBedStore (s.qCompletion q)))

/-- A Rest request is refused (R371). -/
def State.restRefused (s : State) : Bool :=
  !(decide (s.power.dev = .ready) || decide (s.power.dev = .run)) || decide (s.obj 0x2202 2 = 0) ||
    decide (s.obj 0x2202 6 = 0) || !s.scrubs.isEmpty || (List.range 32).any s.bedRingHeld

/-- Domains D1 to D49. -/
def sleepers : List Nat := (List.range 49).map (· + 1)

/-- Fence every domain that is on, but D0 (R372, R379). -/
def State.fenceAll (s : State) : State :=
  sleepers.foldl (fun s d => if s.isOn d then s.fence d false else s) s

/-- Lift the fences of drains under way. -/
def State.liftFences (s : State) : State :=
  sleepers.foldl (fun s d => match s.domain d with
    | .draining _ => s.setDomain d .on
    | _ => s) s

/-- Rest entry begins: dispatch and issue stop, and the drain of every domain starts (R372 steps 1 and 2). A state
request that waits for a boundary is dropped (DESIGN CHOICE, log 39). From READY the Almanac starts to act as R37 lays
down, on the entries still to come (R368). -/
def State.enterRest (s : State) : State :=
  let w := { s.power with rest := .entering, restFrom := s.power.dev, heldWake := none, request := none }
  let s := if s.almanacRuns then s else s.almanacStarts
  { s with power := w }.fenceAll

/-- A write of object 0x2202:01 (R371, R377). -/
def State.restWrite (s : State) (v : Nat) : State × Nat :=
  if v = 0 then (s, 0)
  else if s.power.rest = .entering then (s, 0)
  else if s.restRefused then (s, 0x09)
  else (s.enterRest, 0)

/-- REST_REQUEST (R371). -/
def execRestRequest (s : State) : Host.Outcome State Fault Refusal := done (s.answered (s.restWrite 1))

/-- ALMANAC_REST: fires and starts Rest entry, or is skipped and counted when it would be refused (R37, R371). -/
def execAlmanacRest (k : EntryId) (t : Nat) (s : State) : Host.Outcome State Fault Refusal :=
  let u := s.advance t
  done (match u.nextFiring with
  | some b =>
    if b.index = k.val && decide (entAction b.bits.toNat = 0xA) && u.takesEffect b && u.restRefused then
      ((u.popFiring b).bump 0x2103 6).emit 15 false (partByte (entPart b.bits.toNat)) 0x31 b.payload
    else s.fire k t 0xA fun s _ => s.enterRest
  | none => u)

/-! ### The save area (Table PW-5) -/

/-- Copy a span of memory: only its listed bytes can differ from the unlisted byte. -/
def State.copySpan (s : State) (src dst len : Nat) : State :=
  (s.mem.filter fun c => decide (src ≤ c.1) && decide (c.1 < src + len)).foldl
    (fun t c => t.wr8 (dst + (c.1 - src)) c.2) (s.zeroSpan dst len)

/-- State byte of a context record (DESIGN CHOICE, log 37). -/
def CtxState.code : CtxState → Nat
  | .free => 0
  | .ready => 1
  | .wait => 2
  | .faulted => 3

/-- Wait kind of a context record, and its operands (DESIGN CHOICE, log 37). -/
def WaitKind.image : WaitKind → Nat × List Byte
  | .none => (0, [])
  | .regs rs => (1, natLe ((rs.map fun r => 2 ^ r.toNat).sum) 8)
  | .room => (2, [])
  | .counter sel v => (3, natLe sel 8 ++ natLe v.toNat 8)
  | .epoch e p => (4, natLe e.toNat 8 ++ natLe p.toNat 8)
  | .credit q n => (5, natLe q.val 8 ++ natLe n 8)
  | .park v => (6, natLe v.toNat 8)
  | .fenceLocal => (7, [])
  | .fenceGlobal => (8, [])

/-- A context record of 512 bytes. -/
def Context.record (c : Context) : List Byte :=
  let w := c.wait.image
  ((List.range 32).flatMap fun i => natLe (tget c.regs i 0).toNat 8)
    ++ ((List.range 8).flatMap fun i => natLe (tget c.mregs i 0).toNat 8)
    ++ natLe c.pc.toNat 8 ++ [BitVec.ofNat 8 c.state.code, BitVec.ofNat 8 w.1] ++ zeros 6
    ++ slice w.2 0 16 ++ zeros 160

/-- A queue register block with the held-mode bit. -/
def State.savedBlock (s : State) (q : Nat) : List Byte := patch (s.blockImage q) 0x3C (natLe (b2n (s.qHeld q)) 1)

/-- The Keeper's device-wide access to a page of the save area (R438). -/
def State.saveRq (s : State) (page : Nat) (wr : Bool) : Rq :=
  { unitRq 11 deviceWide wr with addr := localAddr 0 (s.obj 0x2202 6 + 4096 * page), len := 64 }

/-- The Keeper's accesses to the save area go through the matrix: they stop at the first page that denies one, whose fault
is raised (R230, R438; windows and their halves lie on pages). The bytes reached. -/
def State.saveReach (s : State) (wr : Bool) : State × Nat :=
  match (List.range 0x121).find? fun i => (s.resolve (s.saveRq i wr)).toOption.isNone with
  | none => (s, 2 ^ 21)
  | some i =>
    (match s.resolve (s.saveRq i wr) with
     | .error d => s.denied (s.saveRq i wr) d
     | .ok _ => s, 4096 * i)

/-- Write the save area as far as `reach` bytes. -/
def State.saveTo (s : State) (reach : Nat) : State :=
  let k := memKey 0 (s.obj 0x2202 6)
  let put (s : State) (off : Nat) (l : List Byte) : State := s.wrBytes (k + off) (l.take (reach - off))
  let s := (List.range 4).foldl (fun s b =>
    s.copySpan (memKey (20 + b) 0) (k + b * 2 ^ 18) (Min.min (2 ^ 18) (reach - b * 2 ^ 18))) s
  let s := s.contexts.foldl (fun s e => put s (0x100000 + 512 * e.1) e.2.record)
    (s.zeroSpan (k + 0x100000) (Min.min 0x20000 (reach - 0x100000)))
  let s := s.counters.foldl (fun s e => put s (0x120000 + 4 * e.1) (natLe e.2.toNat 4))
    (s.zeroSpan (k + 0x120000) (Min.min 0x400 (reach - 0x120000)))
  (List.range 32).foldl (fun s q => put s (0x120400 + 64 * q) (s.savedBlock q)) s

/-- The Keeper writes the save area (R372 step 5). -/
def State.writeSaveArea (s : State) : State :=
  let r := s.saveReach true
  r.1.saveTo r.2

/-- The Keeper restores the Thread Stores from the save area (R376), as far as it reaches it; registers and counters are
held as saved. -/
def State.readSaveArea (s : State) : State :=
  let r := s.saveReach false
  let k := memKey 0 (s.obj 0x2202 6)
  (List.range 4).foldl (fun s b =>
    s.copySpan (k + b * 2 ^ 18) (memKey (20 + b) 0) (Min.min (2 ^ 18) (r.2 - b * 2 ^ 18))) r.1

/-! ### Entry (R372, R373) -/

/-- Every domain but D0 has drained: nothing waits at a local port, no response is under way, nothing runs, and
the State Mover is not clearing the stream table. -/
def State.allDrained (s : State) : Bool :=
  !s.streams.clearing && (s.matrix.requests.all fun r => decide (r.port.target = 7)) && s.matrix.responses.isEmpty &&
    (List.range 32).all fun q => (s.queue q).run.isNone

/-- Quarter q is in the retention mask. -/
def State.retains (s : State) (q : Nat) : Bool := (s.obj 0x2202 7).testBit q

/-- The Resident streams that Rest entry swaps out: partition, slot (R372 step 4). -/
def State.sleepSwaps (s : State) : List (Nat × Nat) :=
  (List.range 8).flatMap fun p => (s.validSlots p).filterMap fun k =>
    let qr := s.slotOff p k / (3 * 2 ^ 20)
    if s.isOn (38 + qr) && !s.retains qr && !(s.header p k).tent then some (p, k) else none

/-- Swap out a slot's stream. -/
def State.sleepSwap (s : State) (x : Nat × Nat) : State :=
  let i := (s.header x.1 x.2).stream
  (s.swapOut x.1 i (s.entry i)).1

/-- Every port's links go down without a fault; what waited at them is gone. -/
def State.linksOff (s : State) : State := { s with links := [], remote := [], retired := [] }

/-- The neighbour bytes of object 0x3300:03 read none. -/
def State.noNeighbours (s : State) : State := s.setObj 0x3300 3 (2 ^ 64 - 1)

/-- The training values are saved in the Keeper's SRAM, and the memory controllers enter self-refresh (R251). -/
def State.saveTraining (s : State) : State :=
  if s.power.training.isEmpty then s
  else { s with power := { s.power with savedTraining := s.power.training, training := [] } }

/-- Self-refresh exit: the training values are restored, and one WCK2DQ tracking pass sets them anew (R251; the values
are free, log 143). -/
def State.restoreTraining (s : State) : State :=
  let f := s.fresh
  { f.1 with power := { f.1.power with
      training := s.power.savedTraining.map fun e => (e.1, Config.trainingValue f.2 e.1)
      trackings := s.power.trackings + b2n (!s.power.savedTraining.isEmpty) } }

/-- D1 to D49 are clamped: quarters of the retention mask that are not off are retained, every other domain is off
(R372 step 8). -/
def State.clampRest (s : State) : State :=
  let s := (s.cacheClean).saveTraining.linksOff.noNeighbours
  let s := { s with chains := [], matrix := { s.matrix with requests := [], writeBack := false } }
  sleepers.foldl (fun s d =>
    if decide (38 ≤ d) && decide (d ≤ 41) then
      if decide (s.domain d ≠ .off) && s.retains (d - 38) then s.setDomain d .retained else s.clampOff d
    else if bedOfDomain d = some ((d - 2) / 9, 0) then (s.zeroDomain d).setDomain d .off
    else s.clampOff d) s

/-- Rest is reached (R372 steps 3 to 9). -/
def State.reachRest (s : State) : State :=
  let s := s.liftFences.missAll.cancelPrefetches
  let s := (s.sleepSwaps).foldl State.sleepSwap s
  let s := (s.writeSaveArea).clampRest
  { s with power := { s.power with dev := .rest, rest := .asleep } }.bump 0x2202 3

/-- A wake event of bit i (R375, R377): it starts the wake; during entry it is held. -/
def State.wakeEvent (s : State) (i : Nat) : State :=
  if !(s.obj 0x2202 2).testBit i then s
  else match s.power.rest with
    | .entering => { s with power := { s.power with heldWake := s.power.heldWake <|> some i } }
    | .asleep => { s with power := { s.power with rest := .waking, wakeCycle := s.cycle } }.setObj 0x2202 4 (2 ^ i)
    | _ => s

/-- REST_ENTRY_COMPLETE: once the drain is complete; a wake event held since the trigger is taken now (R372,
R377). -/
def execRestEntryComplete (s : State) : Host.Outcome State Fault Refusal :=
  done (if s.power.rest = .entering && s.allDrained then
    let t := s.reachRest
    match t.power.heldWake with
    | some i => { t with power := { t.power with heldWake := none } }.wakeEvent i
    | none => t
  else s)

/-- The domain of a drain that is not complete: the lowest-numbered. -/
def State.stuckDomain (s : State) : Nat := (sleepers.find? fun d => !s.drained d).getD 1

/-- REST_DRAIN_TIMEOUT: entry is abandoned with 0x0E01 (R373). -/
def execRestDrainTimeout (s : State) : Host.Outcome State Fault Refusal :=
  done (if s.power.rest = .entering && !s.allDrained then
    let t := (s.fenceFault s.stuckDomain).liftFences
    { t with power := { t.power with rest := .none, heldWake := none } }
  else s)

/-! ### Wake (R375, R376) -/

/-- ALMANAC_WAKE (R37, R375). -/
def execAlmanacWake (k : EntryId) (t : Nat) (s : State) : Host.Outcome State Fault Refusal :=
  done (s.fire k t 9 fun s _ => s.wakeEvent 0)

/-- WAKE_N (R375). -/
def execWakeN (s : State) : Host.Outcome State Fault Refusal := done (s.wakeEvent 1)

/-- CLKREQ_N_WAKE (R375). -/
def execClkreqNWake (s : State) : Host.Outcome State Fault Refusal := done (s.wakeEvent 3)

/-- Node of this SX4 (R299). -/
def State.node (s : State) : Nat := if s.chip.toNat < 126 then s.chip.toNat + 1 else 0

/-- CAN_WAKE: a frame to the node with identifier 0x400 + n or 0x200 + n (R375). -/
def execCanWake (ident : BitVec 11) (s : State) : Host.Outcome State Fault Refusal :=
  let n := s.node
  done (if n ≠ 0 && (ident.toNat = 0x400 + n || ident.toNat = 0x200 + n) then s.wakeEvent 2 else s)

/-- A domain comes back at a wake: as object 0x2200 last asked, D45 off with two channels (DEDUCED, log 38). -/
def State.wakeDomain (s : State) (d : Nat) : State :=
  let v := s.obj 0x2200 (d + 1)
  if v = 1 && !(decide (d = 45) && s.twoChannels) then s.setDomain d .on
  else if v = 2 then s.setDomain d .retained
  else s

/-- The wake is over, 25,000 REFCLK cycles after its event (R376): domains on, save area restored, the state from
which Rest was entered. -/
def State.wakeDone (s : State) : State :=
  let s := s.advance (s.power.wakeCycle + 250000)
  let s := (((sleepers.foldl State.wakeDomain s).restoreTraining).readSaveArea).trainPorts
    ((List.range 8).filter fun l => s.obj 0x2200 (47 + l / 4) = 1)
  let s := if s.isOn 48 then s.setObj 0x3500 3 1 else s
  { s with power := { s.power with dev := s.power.restFrom, rest := .none } }.stamp

end Sys2Proof.Machine
end

