-- ==== Sys2Proof/Machine/Reset.lean ====
section
/-! DEFINITION. Resets: cold, warm, and by a loss of the supplies (R367, R378 to R381, R391), and what each keeps
(R322, Table PW-7). -/

namespace Sys2Proof.Machine

/-! ### Cold reset (R378) -/

/-- Objects that are fuses (R324). -/
def fuseKeys : List Nat := [objKey 0x7F00 5, objKey 0x7F00 6]

/-- The state after a cold reset: the state after reset with the fuses, the flash, the die's temperature and the
levels of the reset pins; the model's own queue, outputs and counter go on. -/
def State.coldWith (s : State) (straps : Straps) (dev : DevState) : State :=
  { State.reset with
    pending := s.pending
    outputs := s.outputs
    freeCtr := s.freeCtr
    objs := s.objs.filter fun e => decide (e.1 ∈ fuseKeys)
    onceSet := s.onceSet.filter fun k => decide (k ∈ fuseKeys)
    power := { State.reset.power with
      fuseCopies := s.power.fuseCopies, fuseParityBad := s.power.fuseParityBad
      dev, straps, flash := s.power.flash, temperature := s.power.temperature,
      sysrstLow := s.power.sysrstLow, perstLow := s.power.perstLow } }

/-- COLD_RESET: PORST_N goes low and rises; the straps are sampled and the boot starts (R378, R381). With the
supplies down it does nothing. -/
def execColdReset (straps : Straps) (s : State) : Host.Outcome State Fault Refusal :=
  done (if s.power.dev = .off then s else s.coldWith straps .boot)

/-- SUPPLIES_IN_TOLERANCE: from OFF to RESET (Table PW-3). -/
def execSuppliesInTolerance (s : State) : Host.Outcome State Fault Refusal :=
  done (if s.power.dev = .off then s.coldWith s.power.straps .reset else s)

/-- SUPPLY_LOSS: a loss of VDD_AON or VDDIO acts as a cold reset, which ends when PORST_N rises (R391); removed
supplies lead to OFF (Table PW-3). -/
def execSupplyLoss (kind : SupplyLossKind) (s : State) : Host.Outcome State Fault Refusal :=
  done (match kind with
  | .alwaysOn => if s.power.dev = .off then s else s.coldWith s.power.straps .reset
  | .removed => s.coldWith s.power.straps .off)

/-! ### Warm reset (R379) -/

/-- A quarter keeps its contents through a warm reset: it is in the retention mask, and not off (Table PW-7). -/
def State.quarterStays (s : State) (qr : Nat) : Bool := s.retains qr && decide (s.domain (38 + qr) ≠ .off)

/-- A byte of memory that a warm reset keeps: external memory, and the quarters that stay. -/
def State.keyStays (s : State) (k : Nat) : Bool :=
  decide (k < 2 ^ 48) || (decide (k / 2 ^ 48 = 1) && s.quarterStays (k % 2 ^ 48 / (3 * 2 ^ 20)))

/-- The Resident streams of partition p whose slot lies in no quarter that stays: they revert to Banked (R71). -/
def State.lostStreams (s : State) (p : Nat) : List Nat :=
  (s.residentsOf p).filter fun i => !s.quarterStays (s.slotOff p (s.entry i).slot / (3 * 2 ^ 20))

/-- Revert partition p's lost streams and count them (R71). -/
def State.revert (s : State) (p : Nat) : State :=
  let l := s.lostStreams p
  let t := l.foldl (fun t i => t.setLoose i { t.entry i with life := .banked }) s
  t.setObj (0x4020 + p) 0xB l.length

/-- The values of objects that a warm reset keeps (R322). -/
def State.keptObjs (s : State) : Table Nat := s.objs.filter fun e => keptWarm (e.1 / 256) (e.1 % 256)

/-- Packets in the trace buffers (R401). -/
def State.traced (s : State) : Nat := (s.trace.buffers.map fun e => e.2.length).sum

/-- D45 stays off from the end of training with two channels (R361). -/
def State.parkD45 (s : State) : State :=
  if s.twoChannels && !s.power.savedTraining.isEmpty then (s.setDomain 45 .off).setObj 0x2200 46 0 else s

/-- Every domain but D0 is reset (R379 step 5): what Table PW-7 keeps stays, the rest is as after reset. The
packets in the trace buffers are discarded and counted (R401). -/
def State.warmWith (s : State) : State :=
  let w := { State.reset.power with
    dev := if s.power.sysrstLow then .reset else .boot
    warm := if s.power.sysrstLow then .held else .none
    warmed := true
    straps := s.power.straps, flash := s.power.flash, temperature := s.power.temperature,
    thermLow := s.power.thermLow, sysrstLow := s.power.sysrstLow, perstLow := s.power.perstLow,
    keeperSram := s.power.keeperSram, savedTraining := s.power.savedTraining, trackings := s.power.trackings,
    fuseCopies := s.power.fuseCopies, fuseParityBad := s.power.fuseParityBad }
  let t : State := { State.reset with
    pending := s.pending
    outputs := s.outputs
    freeCtr := s.freeCtr
    cycle := s.cycle
    tracker := s.tracker
    objs := s.keptObjs
    onceSet := s.onceSet
    mem := s.mem.filter fun c => s.keyStays c.1
    streams := { tableSet := s.streams.tableSet }
    matrix := { lastError := s.matrix.lastError, nextId := s.matrix.nextId,
                ecc := s.matrix.ecc.filter fun e => s.keyStays (8 * e.1) }
    faults := s.faults
    power := w
    jtag := s.jtag
    lastOwner := s.lastOwner
    kpp := { result := s.kpp.result } }
  (t.setObj 0x7800 7 s.traced).parkD45

/-- Steps 3 to 5 of a warm reset (R379, R70, R71, R245). A scrub under way is completed (DEDUCED, log 40). -/
def State.finishWarm (s : State) : State :=
  let s := (s.discardSteps).cancelPrefetches
  let s := (s.scrubs.foldl State.endScrub s).clearTable
  let s := (List.range 8).foldl State.revert s
  s.cacheClean.saveTraining.warmWith

/-- Go on with a warm reset whose drain is complete (R379 step 2). -/
def State.warmDrained (s : State) : State :=
  if s.power.warm = .draining && s.allDrained then s.finishWarm else s

/-- A warm reset begins: dispatch and issue stop, every domain but D0 drains (R379 steps 1 and 2). -/
def State.beginWarm (s : State) : State :=
  let w := { s.power with dev := .reset, warm := .draining, warmed := true, rest := .none, request := none, domainReqs := [] }
  ({ s with power := w }.fenceAll).warmDrained

/-- A warm reset is asked for: in FAULT after 0x0E03 it waits for the temperature (R370). In RESET it is under way
or not yet possible, with the supplies down there is none. -/
def State.askWarm (s : State) : State :=
  match s.power.dev with
  | .off => s
  | .reset => s
  | .fault =>
    if s.power.tripped && decide (signedOf 32 (s.obj 0x2203 2) ≤ s.power.temperature) then
      { s with power := { s.power with warm := .hot } }
    else s.beginWarm
  | _ => s.beginWarm

/-- WARM_RESET: `SYSRST_N` low for 1 µs, or 1 written to object 0x2202:05 (R379). -/
def execWarmReset (cause : ResetCause) (s : State) : Host.Outcome State Fault Refusal :=
  done (match cause with
  | .pin => { s with power := { s.power with sysrstLow := true } }.askWarm
  | .object => if s.keeperServes then s.askWarm else s)

/-- WARM_RESET_DRAIN_TIMEOUT: the sequence goes on with 0x0E01 (R379 step 2). -/
def execWarmResetDrainTimeout (s : State) : Host.Outcome State Fault Refusal :=
  done (if s.power.warm = .draining then (s.fenceFault s.stuckDomain).finishWarm else s)

/-- SYSRST_N_RELEASE: a warm reset whose step 5 is done leaves RESET (R379). -/
def execSysrstNRelease (s : State) : Host.Outcome State Fault Refusal :=
  let w := { s.power with sysrstLow := false }
  done (if s.power.warm = .held then { s with power := { w with dev := .boot, warm := .none } }
  else { s with power := w })

/-- DRAIN_COMPLETE: of one domain (R362), or of the last of a warm reset (R379). -/
def execDrainComplete (d : DomainId) (s : State) : Host.Outcome State Fault Refusal :=
  done (if s.power.warm = .draining then s.warmDrained else s.drainEnds d)

/-! ### Temperature and supplies (R370, R390, R391) -/

/-- The monitors of D0 run: supplies up, and PORST_N not held low. -/
def State.monitors (s : State) : Bool :=
  match s.power.dev with
  | .off => false
  | .reset => decide (s.power.warm ≠ .none)
  | _ => true

/-- Every domain but D0 is clamped without draining, and the content of external memory is lost (R370). -/
def State.clampAll (s : State) : State :=
  let s := ((s.linkOff).resetHostPort.discardTrace).noNeighbours
  let t : State := { s with
    mem := [], queues := [], contexts := [], counters := [], added := [], lastIssue := [], chains := [], tables := [],
    scrubs := [], links := [], remote := [], retired := []
    streams := { tableSet := s.streams.tableSet }
    matrix := { lastError := s.matrix.lastError, nextId := s.matrix.nextId }
    host := {}
    power := { s.power with clamped := true, domainReqs := [], training := [], savedTraining := [] } }
  sleepers.foldl (fun s d => s.setDomain d .off) t

/-- The die's temperature. -/
def State.setTemperature (s : State) (m : Int) : State := { s with power := { s.power with temperature := m } }

/-- THERMAL_WARN (R390, R392). -/
def execThermalWarn (sensor : Fin 8) (milli : Int) (s : State) : Host.Outcome State Fault Refusal :=
  done (if s.monitors && !s.power.thermLow && decide (signedOf 32 (s.obj 0x2203 2) < milli) then
    let t := s.setTemperature milli
    { t with power := { t.power with thermLow := true } }.raise 0x0E02 deviceWide sensor.val 0 (milli % 2 ^ 64).toNat
  else s)

/-- THERMAL_CLEAR: 2 °C below the warning threshold (R390). -/
def execThermalClear (milli : Int) (s : State) : Host.Outcome State Fault Refusal :=
  done (if s.monitors && s.power.thermLow && decide (milli ≤ signedOf 32 (s.obj 0x2203 2) - 2000) then
    let t := s.setTemperature milli
    { t with power := { t.power with thermLow := false } }
  else s)

/-- THERMAL_TRIP (R370, R390, R392). -/
def execThermalTrip (sensor : Fin 8) (milli : Int) (s : State) : Host.Outcome State Fault Refusal :=
  done (if s.monitors && !s.power.tripped && decide (signedOf 32 (s.obj 0x2203 3) < milli) then
    let t := (s.setTemperature milli).raise 0x0E03 deviceWide sensor.val 0 (milli % 2 ^ 64).toNat
    { t with power := { t.power with tripped := true } }.clampAll.warmDrained
  else s)

/-- TEMPERATURE_BELOW_WARNING: a warm reset that waits for it goes ahead (R370). -/
def execTemperatureBelowWarning (milli : Int) (s : State) : Host.Outcome State Fault Refusal :=
  done (if s.monitors && decide (milli < signedOf 32 (s.obj 0x2203 2)) then
    let t := s.setTemperature milli
    if t.power.warm = .hot then t.beginWarm else t
  else s)

/-- Target of a monitored rail in mV, by its number in Table PW-10 order (R389, R391). -/
def State.railTarget (s : State) (rail : Nat) : Option Nat :=
  match rail with
  | 2 => some (s.obj 0x2203 4)
  | 3 => some 850
  | 4 => some 850
  | 5 => some 1200
  | 6 => some 1050
  | 7 => some 500
  | _ => none

/-- SUPPLY_FAULT: a monitored rail below 90 % or above 110 % of its target (R370, R391, R392). -/
def execSupplyFault (rail : Fin 8) (millivolt : Nat) (s : State) : Host.Outcome State Fault Refusal :=
  done (match s.railTarget rail.val with
  | none => s
  | some g =>
    if s.monitors && (decide (millivolt * 10 < g * 9) || decide (g * 11 < millivolt * 10)) then
      ((s.raise 0x0E04 deviceWide rail.val 0 millivolt).clampAll).warmDrained
    else s)

end Sys2Proof.Machine
end

