-- ==== Sys2Proof/Machine/Boot.lean ====
section
/-! DEFINITION. Boot, images and the flash, state requests, AVS (R367, R369, R382 to R389). -/

namespace Sys2Proof.Machine

/-! ### Images (R383, R384) -/

/-- What the ROM finds where an image may lie; a good image says whether its key and signature were verified. -/
inductive ImageCheck where
  | missing
  | failed
  | good (authenticated : Bool)
  deriving DecidableEq, Repr

/-- Bytes off to off + len − 1 of a source. -/
def span (get : Nat → Byte) (off len : Nat) : List Byte := (List.range len).map fun i => get (off + i)

/-- Header fields `MAGIC` and `BLEN` of an image, and the bytes that the source delivers, are as they must be
(R383, R384). -/
def imagePresent (get : Nat → Byte) (avail : Nat) : Bool :=
  let blen := leNat (span get 8 4)
  decide (leNat (span get 0 4) = 0x4B494D4E) && decide (4096 ≤ blen) && decide (blen ≤ 458752) &&
    decide (blen % 4096 = 0) && decide (256 + blen ≤ avail)

/-- The key and signature of an image (R384). -/
def keyVerifies (get : Nat → Byte) (hash : Nat) : Bool :=
  decide (leNat (sha384 (span get 64 96)) = hash) &&
    ecdsaVerifies (beNat (span get 64 48), beNat (span get 112 48)) (beNat (span get 160 48)) (beNat (span get 208 48))
      (sha384 (span get 0 160))

/-- Verify an image (R384). -/
def checkImage (get : Nat → Byte) (avail : Nat) (secure : Bool) (hash : Nat) : ImageCheck :=
  if !imagePresent get avail then .missing
  else if sha384 (span get 256 (leNat (span get 8 4))) ≠ span get 16 48 then .failed
  else if secure && !keyVerifies get hash then .failed
  else .good secure

/-! ### The flash (R386, R387) -/

/-- A byte of the flash. -/
def State.flashByte (s : State) (off : Nat) : Byte := tget s.power.flash off 0xFF

/-- The flash offset of image 1 (A) or 2 (B). -/
def imageBase (image : Nat) : Nat := if image = 2 then 0x80000 else 0

/-- Bytes of a flash slot: the selection block is reached by no image. -/
def imageRoom : Nat := 0x7F000

/-- Write bytes of the flash. -/
def State.program (s : State) (off : Nat) (l : List Byte) : State :=
  { s with power := { s.power with flash :=
    (List.zip (List.range l.length) l).foldl (fun m e => tset m (off + e.1) e.2 0xFF) s.power.flash } }

/-- The image that the selection block names (R387). -/
def State.selected (s : State) : Nat :=
  let w := leNat (span s.flashByte 0xFF000 4)
  if w + leNat (span s.flashByte 0xFF004 4) = 2 ^ 32 - 1 && decide (w = 1 ∨ w = 2) then w else 1

/-- The boot was from the QSPI flash. -/
def State.hasFlash (s : State) : Bool := decide (s.power.straps.bootSel = 0)

/-- Objects 0x7F00:03 and :04: the version in an image's header, zero where it is absent. -/
def State.imageVersion (s : State) (image : Nat) : Nat :=
  let get := fun i => s.flashByte (imageBase image + i)
  if s.hasFlash && imagePresent get imageRoom then leNat (span get 4 4) else 0

/-! ### Boot (R382, R385, R386) -/

/-- The SECURE fuse. -/
def State.secure (s : State) : Bool := s.objOn 0x7F00 5

/-- The fuse check (R382): both copies of each fuse word agree with good parity, and a set SECURE fuse has a key hash. -/
def State.fusesOk (s : State) : Bool :=
  (fuseKeys.all fun k => decide (tget s.power.fuseCopies k 0 = tget s.objs k 0) && decide (k ∉ s.power.fuseParityBad)) &&
    (!s.secure || decide (s.obj 0x7F00 6 ≠ 0))

/-- Training after a warm reset is restored, not repeated, and reported anew (R251, R379, R250; DEDUCED, log 36). -/
def State.trainingBack (s : State) : State :=
  if s.power.savedTraining.isEmpty || decide (s.obj 0x3400 4 ≠ 0) then s
  else
    let t := s.restoreTraining
    let good := t.power.training.map (·.1)
    let t := t.setObj 0x3400 4 ((good.map fun i => 2 ^ i).sum)
    if good = t.populated then t.setObj 0x3400 5 (good.length * t.obj 0x3400 3 * 2 ^ 27) else t

/-- An image starts: the SX4 enters CONFIG, and object 0x7F00:07 tells of it. -/
def State.startImage (s : State) (source : Nat) (authenticated other : Bool) : State :=
  ({ s with power := { s.power with dev := .config } }.setObj 0x7F00 7
    (source + 4 * b2n authenticated + 8 * b2n other)).trainingBack

/-- 0x1001 or 0x1002, with the image (R392). -/
def State.bootFault (s : State) (failed : Bool) (image : Nat) : State :=
  s.raise (if failed then 0x1001 else 0x1002) deviceWide image

/-- Verify an image of the flash. -/
def State.checkFlash (s : State) (image : Nat) : ImageCheck :=
  checkImage (fun i => s.flashByte (imageBase image + i)) imageRoom s.secure (s.obj 0x7F00 6)

/-- Boot from the flash: the selected image, then the other (R385). -/
def State.bootFlash (s : State) : State :=
  let a := s.selected
  let b := 3 - a
  let s := s.setObj 0x7F00 2 a
  match s.checkFlash a with
  | .good auth => (s.setObj 0x7F00 1 a).startImage 0 auth false
  | ca =>
    match s.checkFlash b with
    | .good auth => (s.setObj 0x7F00 1 b).startImage 0 auth true
    | cb =>
      if ca = .failed then s.bootFault true a
      else if cb = .failed then s.bootFault true b
      else s.bootFault false a

/-- Boot from a downloaded image, which has no fallback (R385, R386). -/
def State.bootDownload (s : State) : State :=
  match checkImage (fun i => tget s.power.download i 0) s.power.downloadLen s.secure (s.obj 0x7F00 6) with
  | .good auth => s.startImage s.power.straps.bootSel.toNat auth false
  | c => s.bootFault (decide (c = .failed)) 0

/-- The boot is by download over PCIe or CAN FD, by an SX4 that can be reached (R386). -/
def State.downloads (s : State) : Bool :=
  decide (s.power.straps.bootSel = 1) || (decide (s.power.straps.bootSel = 2) && decide (s.node ≠ 0))

/-- Keep the abort code of a write that the boot ROM of a download serves too (R386). -/
def State.romAnswered (s : State) (p : State × Nat) : State :=
  if s.power.dev = .boot && s.downloads then { p.1 with kpp := { p.1.kpp with result := BitVec.ofNat 8 p.2 } }
  else s.answered p

/-- IMAGE_START: the boot ROM has checked the fuses, loaded and verified an image and starts it, or none can be
started (R382, R385, R386). A download waits for its state request; in the test mode the SX4 stays in BOOT. -/
def execImageStart (s : State) : Host.Outcome State Fault Refusal :=
  done (if s.power.dev ≠ .boot || s.testMode then s
  else if !s.fusesOk then s.raise 0x1003 deviceWide
  else if s.hasFlash then s.bootFlash
  else if s.downloads then s
  else s.bootFault false 0)

/-! ### State requests (R367, R369) -/

/-- Change the device state, or leave a request for the next epoch boundary. -/
def State.setDev (s : State) (dev : DevState) (request : Option DevState) : State :=
  { s with power := { s.power with dev, request } }

/-- A write of 3 to object 0x1009: from READY to CONFIG, or the start of a downloaded image. -/
def State.requestConfig (s : State) : State × Nat :=
  match s.power.dev with
  | .ready => (s.setDev .config none, 0)
  | .boot =>
    if s.downloads && !s.testMode then
      (if s.fusesOk then s.bootDownload else s.raise 0x1003 deviceWide, 0)
    else (s, 0x09)
  | _ => (s, 0x09)

/-- A write of 4 to object 0x1009: from CONFIG with the partition lock set, or from RUN at the next boundary. -/
def State.requestReady (s : State) : State × Nat :=
  match s.power.dev with
  | .config => if s.locked then (s.setDev .ready none, 0) else (s, 0x09)
  | .run => (s.setDev .run (some .ready), 0)
  | _ => (s, 0x09)

/-- A write of 5 to object 0x1009: from READY at the next boundary. -/
def State.requestRun (s : State) : State × Nat :=
  match s.power.dev with
  | .ready => (s.setDev .ready (some .run), 0)
  | _ => (s, 0x09)

/-- A write of object 0x1009. -/
def State.stateWrite (s : State) (v : Nat) : State × Nat :=
  match v with
  | 3 => s.requestConfig
  | 4 => s.requestReady
  | 5 => s.requestRun
  | _ => (s, 0x06)

/-- STATE_REQUEST_CONFIG. -/
def execStateRequestConfig (s : State) : Host.Outcome State Fault Refusal := done (s.romAnswered s.requestConfig)

/-- STATE_REQUEST_READY. -/
def execStateRequestReady (s : State) : Host.Outcome State Fault Refusal := done (s.answered s.requestReady)

/-- STATE_REQUEST_RUN. -/
def execStateRequestRun (s : State) : Host.Outcome State Fault Refusal := done (s.answered s.requestRun)

/-! ### Image writes (R386, R387) -/

/-- The firmware lock (object 0x1203). -/
def State.firmwareLocked (s : State) : Bool := s.objOn 0x1203 0

/-- Firmware objects are written in CONFIG, READY and RUN (R387). -/
def State.firmwareRuns (s : State) : Bool := decide (s.power.dev ∈ [DevState.config, .ready, .run])

/-- The flash slot that is not running. -/
def State.spareImage (s : State) : Nat := 3 - s.obj 0x7F00 1

/-- Store a block of a downloaded image. -/
def State.downloadBlock (s : State) (off : Nat) (l : List Byte) : State :=
  let m := (List.zip (List.range l.length) l).foldl (fun m e => tset m (off + e.1) e.2 0) s.power.download
  { s with power := { s.power with download := m, downloadLen := Max.max s.power.downloadLen (off + l.length) } }

/-- A write of object 0x7F00:08, in the order of Table KP-5. -/
def State.blockWriteImage (s : State) (l : List Byte) : State × Nat :=
  let off := s.obj 0x7F00 9
  if s.firmwareLocked then (s, 0x07)
  else if l.length = 0 || 65536 < l.length then (s, 0x05)
  else if imageRoom < off + l.length then (s, 0x06)
  else if s.power.dev = .boot && s.downloads && !s.testMode then (s.downloadBlock off l, 0)
  else if !s.firmwareRuns then (s, 0x09)
  else if !s.hasFlash then (s, 0x0F)
  else (s.program (imageBase s.spareImage + off) l, 0)

/-- IMAGE_BLOCK_WRITE. -/
def execImageBlockWrite (bytes : List Byte) (s : State) : Host.Outcome State Fault Refusal :=
  done (s.romAnswered (s.blockWriteImage bytes))

/-- The selection block that names an image: the erased block, then the word and its complement. -/
def selectionBlock (image : Nat) : List Byte :=
  natLe image 4 ++ natLe (2 ^ 32 - 1 - image) 4 ++ List.replicate 4088 0xFF

/-- A write of object 0x7F00:02, in the order of Table KP-5; the value already held programs nothing (R387). -/
def State.nextImage (s : State) (v : Nat) : State × Nat :=
  if s.firmwareLocked then (s, 0x07)
  else if v ≠ 1 && v ≠ 2 then (s, 0x06)
  else if !s.firmwareRuns then (s, 0x09)
  else if !s.hasFlash then (s, 0x0F)
  else if v = s.obj 0x7F00 2 then (s, 0)
  else ((s.setObj 0x7F00 2 v).program 0xFF000 (selectionBlock v), 0)

/-- NEXT_IMAGE_WRITE. -/
def execNextImageWrite (image : BitVec 8) (s : State) : Host.Outcome State Fault Refusal :=
  done (s.answered (s.nextImage image.toNat))

/-! ### AVS (R389) -/

/-- The next target: towards the table's value within 650 to 850 mV, by at most 10 mV. -/
def avsNext (target goal : Nat) : Nat :=
  let g := Max.max 650 (Min.min 850 goal)
  if target < g then Min.min g (target + 10) else Max.max g (target - 10)

/-- The Keeper acts on AVSBus: from CONFIG on, and not within a millisecond of its last step (R389). -/
def State.avsMay (s : State) : Bool :=
  decide (s.power.dev ∈ [DevState.config, .ready, .run, .rest, .fault]) &&
    (match s.power.avsAt with
     | none => true
     | some t => decide (t + 1000000 ≤ s.cycle))

/-- AVS_UPDATE: a voltage command goes out on AVSBus; a regulator that answers has the new target, one that does not
leaves the last one, and the Keeper retries (R389). -/
def execAvsUpdate (answered : Bool) (s : State) : Host.Outcome State Fault Refusal :=
  done (if s.avsMay then
    let v := avsNext (s.obj 0x2203 4) (Config.avsTable s.power.temperature)
    let t : State := { s with outputs := { s.outputs with avs := s.outputs.avs ++ [v] }
                              power := { s.power with avsAt := some s.cycle } }
    if answered then t.setObj 0x2203 4 v else t
  else s)

end Sys2Proof.Machine
end

