-- ==== Sys2Proof/Machine/Float.lean ====
section
/-! DEFINITION. IEEE 754 binary32 by exact arithmetic, the accumulator conversion, and the Function Unit's
built-in functions (R176, R179, R197 to R199). -/

namespace Sys2Proof.Machine

/-- The one NaN every float operation returns (R179, R198). -/
def f32NaN : W32 := 0x7FC00000
/-- Positive infinity. -/
def f32Inf : W32 := 0x7F800000
/-- The largest finite value. -/
def f32Max : W32 := 0x7F7FFFFF

/-- Sign bit. -/
def f32Neg (x : W32) : Bool := x.msb
/-- The bits below the sign. -/
def f32Mag (x : W32) : Nat := x.toNat % 2 ^ 31
/-- NaN test. -/
def f32IsNaN (x : W32) : Bool := decide (f32Mag x > 0x7F800000)
/-- Infinity test. -/
def f32IsInf (x : W32) : Bool := decide (f32Mag x = 0x7F800000)
/-- Put a sign on a magnitude. -/
def f32Signed (neg : Bool) (mag : Nat) : W32 := BitVec.ofNat 32 (mag + if neg then 2 ^ 31 else 0)

/-- A dyadic number: an integer times a power of two. -/
structure Dyadic where
  m : Int
  e : Int
  deriving DecidableEq, Repr

/-- The exact value of a finite binary32. -/
def f32Value (x : W32) : Dyadic :=
  let mag : Nat := f32Mag x
  let ex : Nat := mag / 2 ^ 23
  let fr : Nat := mag % 2 ^ 23
  let m : Nat := if ex = 0 then fr else fr + 2 ^ 23
  let e : Int := if ex = 0 then -149 else (ex : Int) - 150
  { m := if f32Neg x then -(m : Int) else m, e }

/-- Numerator and denominator of 2 to a power. -/
def pow2Num (e : Int) : Nat := 2 ^ e.toNat
/-- See `pow2Num`. -/
def pow2Den (e : Int) : Nat := 2 ^ (-e).toNat

/-- Exact sum. -/
def Dyadic.add (x y : Dyadic) : Dyadic :=
  let e := Min.min x.e y.e
  { m := x.m * pow2Num (x.e - e) + y.m * pow2Num (y.e - e), e }
/-- Exact product. -/
def Dyadic.mul (x y : Dyadic) : Dyadic := { m := x.m * y.m, e := x.e + y.e }
/-- Exact comparison x < y. -/
def Dyadic.lt (x y : Dyadic) : Bool := decide ((x.add { m := -y.m, e := y.e }).m < 0)
/-- Exact equality of values. -/
def Dyadic.eqv (x y : Dyadic) : Bool := decide ((x.add { m := -y.m, e := y.e }).m = 0)

/-- Round n ÷ d to an integer, to nearest, ties to even. -/
def roundEvenNat (n d : Nat) : Nat :=
  let q := n / d
  let r := n % d
  if 2 * r < d then q else if 2 * r = d then q + q % 2 else q + 1

/-- Round n ÷ d to an integer, to nearest, ties to even (R179 rnd). -/
def roundEvenInt (n : Int) (d : Nat) : Int :=
  if n < 0 then -(roundEvenNat n.natAbs d : Int) else roundEvenNat n.natAbs d

/-- The integer q and exponent e with q = (n ÷ d) × 2^−e below 2^p and at least 2^(p−1) unless e = emin:
the numerator and denominator of the scaled value, and e. -/
def scaleTo (p : Nat) (emin : Option Int) (n d : Nat) : Nat × Nat × Int :=
  let e0 : Int := (Nat.log2 n : Int) - Nat.log2 d - p
  let fits (e : Int) : Bool := decide (n * pow2Den e < 2 ^ p * (d * pow2Num e))
  let e1 := if fits e0 then e0 else if fits (e0 + 1) then e0 + 1 else e0 + 2
  let e := match emin with
    | none => e1
    | some m => Max.max e1 m
  (n * pow2Den e, d * pow2Num e, e)

/-- Magnitude bits of n ÷ d rounded to nearest, ties to even; overflow gives infinity; subnormals kept. -/
def f32RoundMag (n d : Nat) : Nat :=
  if n = 0 then 0
  else
    let s := scaleTo 24 (some (-149)) n d
    Min.min (((s.2.2 + 149).toNat) * 2 ^ 23 + roundEvenNat s.1 s.2.1) 0x7F800000

/-- Magnitude bits of n ÷ d cut toward zero. -/
def f32CutMag (n d : Nat) : Nat :=
  if n = 0 then 0
  else
    let s := scaleTo 24 (some (-149)) n d
    Min.min (((s.2.2 + 149).toNat) * 2 ^ 23 + s.1 / s.2.1) 0x7F7FFFFF

/-- Round an exact ratio to binary32; a zero takes the given sign. -/
def f32OfRat (zeroNeg : Bool) (n : Int) (d : Nat) : W32 :=
  if n = 0 then f32Signed zeroNeg 0 else f32Signed (decide (n < 0)) (f32RoundMag n.natAbs d)

/-- Round a dyadic number to binary32. -/
def f32OfDyadic (zeroNeg : Bool) (x : Dyadic) : W32 :=
  f32OfRat zeroNeg (x.m * pow2Num x.e) (pow2Den x.e)

/-- MUL.F (Table EL-5). -/
def f32Mul (x y : W32) : W32 :=
  let neg := f32Neg x != f32Neg y
  if f32IsNaN x || f32IsNaN y then f32NaN
  else if f32IsInf x || f32IsInf y then
    (if f32Mag x = 0 || f32Mag y = 0 then f32NaN else f32Signed neg 0x7F800000)
  else f32OfDyadic neg ((f32Value x).mul (f32Value y))

/-- FMA.F: x × y + z, rounded once (Table EL-5). -/
def f32Fma (x y z : W32) : W32 :=
  let neg := f32Neg x != f32Neg y
  if f32IsNaN x || f32IsNaN y || f32IsNaN z then f32NaN
  else if f32IsInf x || f32IsInf y then
    (if f32Mag x = 0 || f32Mag y = 0 then f32NaN
     else if f32IsInf z && (f32Neg z != neg) then f32NaN
     else f32Signed neg 0x7F800000)
  else if f32IsInf z then z
  else f32OfDyadic (neg && f32Neg z) (((f32Value x).mul (f32Value y)).add (f32Value z))

/-- ADD.F. -/
def f32Add (x y : W32) : W32 := f32Fma x 0x3F800000 y
/-- NEG.F: sign bit inverted. -/
def f32NegF (x : W32) : W32 := x ^^^ 0x80000000
/-- ABS.F: sign bit cleared. -/
def f32Abs (x : W32) : W32 := x &&& 0x7FFFFFFF
/-- SUB.F. -/
def f32Sub (x y : W32) : W32 := f32Fma (f32NegF y) 0x3F800000 x

/-- A position of a number on the line of binary32 values, infinities included. -/
def f32Order (x : W32) : Int := if f32Neg x then -(f32Mag x : Int) else f32Mag x

/-- x < y; false if either is NaN. Zeros are equal. -/
def f32Lt (x y : W32) : Bool := !f32IsNaN x && !f32IsNaN y && decide (f32Order x < f32Order y)
/-- x = y; false if either is NaN. -/
def f32Eq (x y : W32) : Bool := !f32IsNaN x && !f32IsNaN y && decide (f32Order x = f32Order y)

/-- MIN.F: IEEE 754 minimumNumber, with −0 below +0. -/
def f32MinNum (x y : W32) : W32 :=
  if f32IsNaN x && f32IsNaN y then f32NaN
  else if f32IsNaN x then y else if f32IsNaN y then x
  else if f32Order x < f32Order y then x
  else if f32Order y < f32Order x then y
  else if f32Neg x then x else y

/-- MAX.F: IEEE 754 maximumNumber. -/
def f32MaxNum (x y : W32) : W32 :=
  if f32IsNaN x && f32IsNaN y then f32NaN
  else if f32IsNaN x then y else if f32IsNaN y then x
  else if f32Order x < f32Order y then y
  else if f32Order y < f32Order x then x
  else if f32Neg x then y else x

/-- Clamp to [−2^31, 2^31 − 1]; whether it changed the value (R179 sat, R177). -/
def satI32 (v : Int) : W32 × Bool :=
  if v < -(2 ^ 31) then (BitVec.ofInt 32 (-(2 ^ 31)), true)
  else if v > 2 ^ 31 - 1 then (BitVec.ofInt 32 (2 ^ 31 - 1), true)
  else (BitVec.ofInt 32 v, false)

/-- v × 2^e rounded to an integer, to nearest, ties to even. -/
def roundScaled (v : Int) (e : Int) : Int := roundEvenInt (v * pow2Num e) (pow2Den e)

/-- Listing EL-1 to S32: the value and whether it saturates. -/
def accToS32 (v : Int) (m : Nat) (s o : Int) : W32 × Bool := satI32 (roundScaled (v * m) (s - o))

/-- Listing EL-1 to F32: overflow clamps to the largest finite and saturates. -/
def accToF32 (v : Int) (m : Nat) (s : Int) : W32 × Bool :=
  let r := f32OfDyadic false { m := v * m, e := s }
  if f32IsInf r then (f32Signed (f32Neg r) f32Max.toNat, true) else (r, false)

/-- CVT.IF. -/
def cvtIF (x : W32) (imm : Int) : W32 := f32OfDyadic false { m := x.toInt, e := imm }

/-- CVT.FI: NaN gives 0 and counts a saturation; infinities saturate. -/
def cvtFI (x : W32) (imm : Int) : W32 × Bool :=
  if f32IsNaN x then (0, true)
  else if f32IsInf x then satI32 (if f32Neg x then -(2 ^ 40) else 2 ^ 40)
  else satI32 (roundScaled (f32Value x).m ((f32Value x).e + imm))

/-- Fraction bits of the fixed-point sums that place exp and ln between two binary32 values. -/
def fracBits : Nat := 320

/-- Σ of the first n terms X^k ÷ k! after the term t of number k, in fixed point. -/
def expTerms (x : Nat) : Nat → Nat → Nat → Nat
  | 0, _, _ => 0
  | n + 1, k, t => t + expTerms x n (k + 1) (t * x / 2 ^ fracBits / (k + 1))

/-- exp of a fixed-point number, in fixed point. -/
def expFix (x : Nat) : Nat := expTerms x 800 0 (2 ^ fracBits)

/-- Σ of z^(2k+1) ÷ (2k+1), fixed point. -/
def atanhTerms (z2 : Nat) : Nat → Nat → Nat → Nat
  | 0, _, _ => 0
  | n + 1, k, t => t / (2 * k + 1) + atanhTerms z2 n (k + 1) (t * z2 / 2 ^ fracBits)

/-- 2 artanh(n ÷ d) for 0 ≤ n ÷ d ≤ 1/3, fixed point. -/
def atanh2 (n d : Nat) : Nat :=
  let z := n * 2 ^ fracBits / d
  2 * atanhTerms (z * z / 2 ^ fracBits) 110 0 z

/-- ln 2, fixed point. -/
def ln2Fix : Nat := atanh2 1 3

/-- One of the two values that bracket an inexact result, the lower magnitude given (R197). -/
def pickUlp (fn : Nat) (x : W32) (neg : Bool) (lower : Nat) (exact : Bool) : W32 :=
  f32Signed neg (if exact then lower else if Config.takesUpper fn x then lower + 1 else lower)

/-- exp (R197, R198). -/
def fnExp (x : W32) : W32 :=
  if f32IsNaN x then f32NaN
  else if f32Mag x = 0 then 0x3F800000
  else if f32IsInf x then (if f32Neg x then 0 else f32Inf)
  else
    let v := f32Value x
    let xf := v.m.natAbs * pow2Num (v.e + fracBits) / pow2Den (v.e + fracBits)
    if f32Neg x then
      if xf ≥ 110 * 2 ^ fracBits then 0
      else
        let e := expFix xf
        -- 2^fracBits ÷ e lies below 2^−149, or below 2^−150
        if 2 ^ fracBits * 2 ^ 150 < e then 0
        else if 2 ^ fracBits * 2 ^ 149 < e then 1
        else pickUlp 0 x false (f32CutMag (2 ^ fracBits) e) false
    else if xf ≥ 100 * 2 ^ fracBits then f32Inf
    else
      let e := expFix xf
      if e > (2 ^ 24 - 1) * 2 ^ (104 + fracBits) then f32Inf
      else pickUlp 0 x false (f32CutMag e (2 ^ fracBits)) false

/-- 1 ÷ x. -/
def fnRecip (x : W32) : W32 :=
  let neg := f32Neg x
  if f32IsNaN x then f32NaN
  else if f32Mag x = 0 then f32Signed neg 0x7F800000
  else if f32IsInf x then f32Signed neg 0
  else
    let v := f32Value x
    let n := pow2Den v.e
    let d := v.m.natAbs * pow2Num v.e
    if f32RoundMag n d = 0x7F800000 && decide (n ≥ d * 2 ^ 128) then f32Signed neg 0x7F800000
    else
      let lo := f32CutMag n d
      let l := f32Value (f32Signed false lo)
      let exact := decide (l.m.natAbs * pow2Num l.e * d = n * pow2Den l.e)
      pickUlp 1 x neg lo exact

/-- ln x. -/
def fnLn (x : W32) : W32 :=
  if f32IsNaN x then f32NaN
  else if f32Mag x = 0 then f32Signed true 0x7F800000
  else if f32Neg x then f32NaN
  else if f32IsInf x then f32Inf
  else if x = 0x3F800000 then 0
  else
    let v := f32Value x
    let m := v.m.natAbs
    let top := Nat.log2 m
    let ex : Int := v.e + top
    let l : Int := ex * ln2Fix + atanh2 (m - 2 ^ top) (m + 2 ^ top)
    pickUlp 2 x (decide (l < 0)) (f32CutMag l.natAbs (2 ^ fracBits)) false

/-- 1 ÷ √x. -/
def fnRsqrt (x : W32) : W32 :=
  if f32IsNaN x then f32NaN
  else if f32Mag x = 0 then f32Signed (f32Neg x) 0x7F800000
  else if f32Neg x then f32NaN
  else if f32IsInf x then 0
  else
    let v := f32Value x
    let n := pow2Den v.e
    let d := v.m.natAbs * pow2Num v.e
    let r := Nat.sqrt (n * 4 ^ 200 / d)
    let lo := f32CutMag r (2 ^ 200)
    let l := f32Value (f32Signed false lo)
    let exact := decide ((l.m.natAbs * pow2Num l.e) ^ 2 * d = n * pow2Den l.e ^ 2)
    pickUlp 3 x false lo exact

end Sys2Proof.Machine
end

