-- ==== Sys2Proof/Machine/Tables.lean ====
section
/-! DEFINITION. Function tables: the image, its validity, and the evaluation of a slot (R200 to R203). -/

namespace Sys2Proof.Machine

/-- Bytes of a table image (R200). -/
def tableLen : Nat := 1600

/-- An F32 field of a table image. -/
def imgF32 (img : List Byte) (off : Nat) : W32 := BitVec.ofNat 32 (field img off 4)
/-- `LO`. -/
def imgLo (img : List Byte) : W32 := imgF32 img 8
/-- `HI`. -/
def imgHi (img : List Byte) : W32 := imgF32 img 12
/-- `C1`. -/
def imgC1 (img : List Byte) : W32 := imgF32 img 16
/-- `C2`. -/
def imgC2 (img : List Byte) : W32 := imgF32 img 20
/-- `BELOW`. -/
def imgBelow (img : List Byte) : W32 := imgF32 img 24
/-- `ABOVE`. -/
def imgAbove (img : List Byte) : W32 := imgF32 img 28
/-- `RRED`. -/
def imgRred (img : List Byte) : Nat := field img 4 1
/-- `DEG`. -/
def imgDeg (img : List Byte) : Nat := field img 5 1
/-- Coefficient k of segment s. -/
def imgCoef (img : List Byte) (s k : Nat) : W32 := imgF32 img (64 + 24 * s + 4 * k)

/-- Exact difference of two finite values. -/
def exactSub (x y : W32) : Dyadic := (f32Value x).add { m := -(f32Value y).m, e := (f32Value y).e }

/-- The exponent of the segment width w, where it is a power of two (R201). -/
def segmentExp (img : List Byte) : Option Int :=
  let d := exactSub (imgHi img) (imgLo img)
  if d.m > 0 && isPow2 d.m.natAbs then some (d.e + Nat.log2 d.m.natAbs - 6) else none

/-- ⌊x × 2^−e⌋. -/
def Dyadic.floorBy (x : Dyadic) (e : Int) : Int := x.m * pow2Num (x.e - e) / (pow2Den (x.e - e) : Int)

/-- Horner's rule from coefficient k down to 0 (R201). -/
def horner (img : List Byte) (s : Nat) (t : W32) : Nat → W32 → W32
  | 0, acc => acc
  | k + 1, acc => horner img s t k (f32Fma acc t (imgCoef img s k))

/-- p(u) for u in [`LO`, `HI`); `BELOW` or `ABOVE` outside (R201, Table FS-3). The sum `LO` + s × w is exact and
the difference is rounded once (DEDUCED, log 43). -/
def tablePoly (img : List Byte) (u : W32) : W32 :=
  if f32IsNaN u then f32NaN
  else if f32Lt u (imgLo img) then imgBelow img
  else if !f32Lt u (imgHi img) then imgAbove img
  else
    let e := (segmentExp img).getD 0
    let d := exactSub u (imgLo img)
    let s := (d.floorBy e).toNat
    let t := f32OfDyadic false (d.add { m := -(s : Int), e })
    horner img s t (imgDeg img) (imgCoef img s (imgDeg img))

/-- Additive period: ⌊(x − `LO`) ÷ `C1`⌋ periods taken off (Table FS-4). -/
def tablePeriod (img : List Byte) (x : W32) : W32 :=
  if f32IsInf x then imgAbove img
  else
    let c := f32Value (imgC1 img)
    let k := (exactSub x (imgLo img)).floorBy (c.e + Nat.log2 c.m.natAbs)
    tablePoly img (f32OfDyadic false ((f32Value x).add { m := -(k * c.m), e := c.e }))

/-- Exponent split (Table FS-4). -/
def tableSplit (img : List Byte) (x : W32) : W32 :=
  if f32Mag x = 0 || f32Neg x then imgBelow img
  else if f32IsInf x then imgAbove img
  else
    let v := f32Value x
    let top := Nat.log2 v.m.natAbs
    let f := f32OfDyadic false { m := v.m, e := -top }
    f32Fma (f32OfDyadic false { m := v.e + top, e := 0 }) (imgC1 img) (tablePoly img f)

/-- Mirror (Table FS-4). -/
def tableMirror (img : List Byte) (x : W32) : W32 :=
  if !f32Lt x (imgC1 img) then tablePoly img x
  else f32Sub (imgC2 img) (tablePoly img (f32Fma 0x40000000 (imgC1 img) (f32NegF x)))

/-- Value of a table function (R202). -/
def tableValue (img : List Byte) (x : W32) : W32 :=
  if f32IsNaN x then f32NaN
  else match imgRred img with
    | 0 => tablePoly img x
    | 1 => tablePeriod img x
    | 2 => tableSplit img x
    | _ => tableMirror img x

/-- The constraint of Table FS-4 that goes with the range reduction. -/
def reductionOk (img : List Byte) : Bool :=
  match imgRred img with
  | 0 => true
  | 1 => (exactSub (imgHi img) (imgLo img)).eqv (f32Value (imgC1 img))
  | 2 => f32Eq (imgLo img) 0x3F800000 && f32Eq (imgHi img) 0x40000000
  | 3 => f32Eq (imgLo img) (imgC1 img)
  | _ => false

/-- Finite. -/
def f32Finite (x : W32) : Bool := decide (f32Mag x < 0x7F800000)

/-- Whether an image passes R203. -/
def tableOk (img : List Byte) : Bool :=
  decide (img.length = tableLen) && decide (field img 0 2 = 1) && decide (field img 2 2 = 64) &&
  decide (imgRred img < 4) && decide (imgDeg img ≤ 5) && decide (field img 6 2 = 0) &&
  allZero (slice img 36 24) && decide (field img 60 4 = crc32c (slice img 0 60 ++ slice img 64 1536)) &&
  ([8, 12, 16, 20, 24, 28].all fun o => f32Finite (imgF32 img o)) &&
  (segmentExp img).isSome && reductionOk img &&
  (List.range 64).all fun s => (List.range 6).all fun k =>
    if k ≤ imgDeg img then f32Finite (imgCoef img s k) else decide (imgCoef img s k = 0)

end Sys2Proof.Machine
end

