-- ==== Sys2Proof/Machine/Stick.lean ====
section
/-! DEFINITION. Sticks: the operation word, its static check, and what it computes for one element (R178 to R180,
Tables EL-3 to EL-5). -/

namespace Sys2Proof.Machine

/-- Operations of a stick (Table EL-5). -/
inductive StickFn where
  | addI
  | subI
  | mulI
  | fmaI
  | minI
  | maxI
  | cmpltI
  | cmpeqI
  | shlI
  | sraI
  | andI
  | orI
  | xorI
  | sel
  | mov
  | addF
  | subF
  | mulF
  | fmaF
  | minF
  | maxF
  | cmpltF
  | cmpeqF
  | absF
  | negF
  | cvtIF
  | cvtFI
  | fn
  deriving DecidableEq, Repr

/-- The operation of an `OP` code; none where it is reserved. -/
def stickFnOf (op : Nat) : Option StickFn :=
  match op with
  | 0x01 => some .addI
  | 0x02 => some .subI
  | 0x03 => some .mulI
  | 0x04 => some .fmaI
  | 0x05 => some .minI
  | 0x06 => some .maxI
  | 0x07 => some .cmpltI
  | 0x08 => some .cmpeqI
  | 0x09 => some .shlI
  | 0x0A => some .sraI
  | 0x0B => some .andI
  | 0x0C => some .orI
  | 0x0D => some .xorI
  | 0x0E => some .sel
  | 0x0F => some .mov
  | 0x10 => some .addF
  | 0x11 => some .subF
  | 0x12 => some .mulF
  | 0x13 => some .fmaF
  | 0x14 => some .minF
  | 0x15 => some .maxF
  | 0x16 => some .cmpltF
  | 0x17 => some .cmpeqF
  | 0x18 => some .absF
  | 0x19 => some .negF
  | 0x20 => some .cvtIF
  | 0x21 => some .cvtFI
  | 0x30 => some .fn
  | _ => none

/-- Type of a position: integer, float, or T, the same on all its positions. -/
inductive Want where
  | int
  | float
  | same
  deriving DecidableEq, Repr

/-- Type of a value: `any` where every operand took its type from its position (DEDUCED, log 44). -/
inductive LaneType where
  | int
  | float
  | any
  deriving DecidableEq, Repr

/-- Positions of an operation, the result's type, and whether it uses `SH`, `IMM`. -/
structure Shape where
  args : List Want
  res : Want
  sh : Bool := false
  imm : Bool := false
  deriving DecidableEq, Repr

/-- Types of Table EL-5. -/
def StickFn.shape : StickFn → Shape
  | .addI => { args := [.int, .int], res := .int }
  | .subI => { args := [.int, .int], res := .int }
  | .mulI => { args := [.int, .int], res := .int, sh := true }
  | .fmaI => { args := [.int, .int, .int], res := .int, sh := true }
  | .minI => { args := [.int, .int], res := .int }
  | .maxI => { args := [.int, .int], res := .int }
  | .cmpltI => { args := [.int, .int], res := .int }
  | .cmpeqI => { args := [.int, .int], res := .int }
  | .shlI => { args := [.int], res := .int, sh := true }
  | .sraI => { args := [.int], res := .int, sh := true }
  | .andI => { args := [.int, .int], res := .int }
  | .orI => { args := [.int, .int], res := .int }
  | .xorI => { args := [.int, .int], res := .int }
  | .sel => { args := [.same, .same, .int], res := .same }
  | .mov => { args := [.same], res := .same }
  | .addF => { args := [.float, .float], res := .float }
  | .subF => { args := [.float, .float], res := .float }
  | .mulF => { args := [.float, .float], res := .float }
  | .fmaF => { args := [.float, .float, .float], res := .float }
  | .minF => { args := [.float, .float], res := .float }
  | .maxF => { args := [.float, .float], res := .float }
  | .cmpltF => { args := [.float, .float], res := .int }
  | .cmpeqF => { args := [.float, .float], res := .int }
  | .absF => { args := [.float], res := .float }
  | .negF => { args := [.float], res := .float }
  | .cvtIF => { args := [.int], res := .float, imm := true }
  | .cvtFI => { args := [.float], res := .int, imm := true }
  | .fn => { args := [.float], res := .float, imm := true }

/-- One operation word (Table EL-3). -/
structure StickOp where
  last : Bool
  op : Nat
  dst : Nat
  x : Nat
  y : Nat
  z : Nat
  sh : Nat
  imm : W32
  deriving DecidableEq, Repr

/-- The operation word of 64 bits. -/
def stickOpOf (w : Nat) : StickOp :=
  { last := w.testBit 63, op := bits w 62 56, dst := bits w 55 52, x := bits w 51 47, y := bits w 46 42,
    z := bits w 41 37, sh := bits w 36 32, imm := BitVec.ofNat 32 w }

/-- The 64 bits of an operation word. -/
def StickOp.word (o : StickOp) : Nat :=
  (if o.last then 2 ^ 63 else 0) + o.op * 2 ^ 56 + o.dst * 2 ^ 52 + o.x * 2 ^ 47 + o.y * 2 ^ 42 + o.z * 2 ^ 37
    + o.sh * 2 ^ 32 + o.imm.toNat

/-! ### The check (R180) -/

/-- What a stick may name: types of the streams a to d and of the outputs o0, o1 (none: unused), scalars, valid
table slots of the bed. -/
structure StickEnv where
  streams : List (Option LaneType)
  scalars : Bool
  outs : List (Option LaneType)
  slots : List Nat
  deriving DecidableEq, Repr

/-- What the words so far have written. -/
structure Typing where
  temps : List (Option LaneType) := List.replicate 8 none
  outs : List Nat := []
  deriving DecidableEq, Repr

/-- Type of a selector; none where it is reserved, unused or not yet written (Table EL-4). -/
def StickEnv.selector (e : StickEnv) (t : Typing) (n : Nat) : Option LaneType :=
  if n < 8 then t.temps.getD n none
  else if n < 12 then e.streams.getD (n - 8) none
  else if n < 16 then (if e.scalars then some .any else none)
  else if n < 18 then some .any
  else if n = 18 then some .int
  else none

/-- A value of this type may stand where `w` is wanted. -/
def LaneType.fits (l : LaneType) (w : Want) : Bool :=
  match w, l with
  | .int, .float => false
  | .float, .int => false
  | _, _ => true

/-- The one type T of the `same` positions; none where they differ. -/
def sameType (ws : List Want) (ls : List LaneType) : Option LaneType :=
  let t := (List.zip ws ls).filterMap fun p => if p.1 = .same then some p.2 else none
  if .int ∈ t then (if .float ∈ t then none else some .int)
  else if .float ∈ t then some .float else some .any

/-- Type of a result. -/
def Want.type (w : Want) (t : LaneType) : LaneType :=
  match w with
  | .int => .int
  | .float => .float
  | .same => t

/-- Two types may meet in an output. -/
def LaneType.meets (a b : LaneType) : Bool := !(a = .int && b = .float) && !(a = .float && b = .int)

/-- A result of type l written to `DST`. -/
def StickEnv.write (e : StickEnv) (t : Typing) (dst : Nat) (l : LaneType) : Option Typing :=
  if dst < 8 then some { t with temps := t.temps.set dst (some l) }
  else if dst < 10 then
    match e.outs.getD (dst - 8) none with
    | some o => if o.meets l && decide (dst - 8 ∉ t.outs) then some { t with outs := t.outs ++ [dst - 8] } else none
    | none => none
  else none

/-- Whether `IMM` is allowed: a built-in function or a valid slot; an exponent from −255 to 255. -/
def StickEnv.immOk (e : StickEnv) (f : StickFn) (imm : W32) : Bool :=
  match f with
  | .fn => decide (imm.toNat < 4) || (decide (8 ≤ imm.toNat) && decide (imm.toNat < 16) &&
      decide (imm.toNat - 8 ∈ e.slots))
  | .cvtIF => decide (-255 ≤ imm.toInt) && decide (imm.toInt ≤ 255)
  | .cvtFI => decide (-255 ≤ imm.toInt) && decide (imm.toInt ≤ 255)
  | _ => true

/-- Check one word (R180): the typing after it and the type of its result, none where it fails. -/
def StickEnv.word (e : StickEnv) (t : Typing) (o : StickOp) : Option (Typing × LaneType) :=
  match stickFnOf o.op with
  | none => none
  | some f =>
    let sh := f.shape
    let sels := [o.x, o.y, o.z].take sh.args.length
    match sels.mapM (e.selector t) with
    | none => none
    | some ls =>
      if (([o.x, o.y, o.z].drop sh.args.length).all (· = 0)) && (sh.sh || decide (o.sh = 0)) &&
          (sh.imm || decide (16 ∈ sels) || decide (o.imm = 0)) &&
          ((List.zip sh.args ls).all fun p => p.2.fits p.1) && e.immOk f o.imm then
        match sameType sh.args ls with
        | none => none
        | some s => (e.write t o.dst (sh.res.type s)).map fun t => (t, sh.res.type s)
      else none

/-- A checked word: the word and whether its result is a float. -/
abbrev TypedOp := StickOp × Bool

/-- Check the words from number i on: the checked words, or the index of the failing one (R178, R180). -/
def StickEnv.check (e : StickEnv) (t : Typing) (i : Nat) : List StickOp → Except Nat (List TypedOp)
  | [] => .error 0
  | [o] =>
    (match o.last, e.word t o with
     | true, some r =>
       if (List.range 2).all fun k => (e.outs.getD k none).isNone || decide (k ∈ r.1.outs) then
         .ok [(o, decide (r.2 = .float))]
       else .error i
     | _, _ => .error i)
  | o :: l =>
    (match o.last, e.word t o with
     | false, some r => (e.check r.1 (i + 1) l).map ((o, decide (r.2 = .float)) :: ·)
     | _, _ => .error i)

/-! ### What it computes (Table EL-5) -/

/-- Values an element brings to a stick. -/
structure StickArgs where
  ins : List W32
  scalars : List W32
  index : W32
  deriving DecidableEq, Repr

/-- What a stick has formed: temporaries, o0 and o1, and saturated results. -/
structure StickRun where
  temps : List W32 := List.replicate 8 0
  outs : List W32 := [0, 0]
  sats : Nat := 0
  deriving DecidableEq, Repr

/-- Value of a selector. -/
def StickArgs.value (a : StickArgs) (r : StickRun) (imm : W32) (n : Nat) : W32 :=
  if n < 8 then r.temps.getD n 0
  else if n < 12 then a.ins.getD (n - 8) 0
  else if n < 16 then a.scalars.getD (n - 12) 0
  else if n = 16 then imm
  else if n = 18 then a.index
  else 0

/-- A function of the Function Unit: built in, or the table slot's image (R197, R202). -/
def fnValue (slot : Nat → List Byte) (imm : Nat) (x : W32) : W32 :=
  match imm with
  | 0 => fnExp x
  | 1 => fnRecip x
  | 2 => fnLn x
  | 3 => fnRsqrt x
  | n => tableValue (slot (n - 8)) x

/-- A comparison's result. -/
def flag32 (b : Bool) : W32 := if b then 1 else 0

/-- Result of an operation and whether it saturated. -/
def StickFn.run (slot : Nat → List Byte) (f : StickFn) (sh : Nat) (imm x y z : W32) : W32 × Bool :=
  match f with
  | .addI => satI32 (x.toInt + y.toInt)
  | .subI => satI32 (x.toInt - y.toInt)
  | .mulI => satI32 (roundScaled (x.toInt * y.toInt) (-(sh : Int)))
  | .fmaI => satI32 (z.toInt + roundScaled (x.toInt * y.toInt) (-(sh : Int)))
  | .minI => (if x.toInt ≤ y.toInt then x else y, false)
  | .maxI => (if x.toInt ≤ y.toInt then y else x, false)
  | .cmpltI => (flag32 (decide (x.toInt < y.toInt)), false)
  | .cmpeqI => (flag32 (decide (x = y)), false)
  | .shlI => satI32 (x.toInt * 2 ^ sh)
  | .sraI => (BitVec.ofInt 32 (roundScaled x.toInt (-(sh : Int))), false)
  | .andI => (x &&& y, false)
  | .orI => (x ||| y, false)
  | .xorI => (x ^^^ y, false)
  | .sel => (if z ≠ 0 then x else y, false)
  | .mov => (x, false)
  | .addF => (f32Add x y, false)
  | .subF => (f32Sub x y, false)
  | .mulF => (f32Mul x y, false)
  | .fmaF => (f32Fma x y z, false)
  | .minF => (f32MinNum x y, false)
  | .maxF => (f32MaxNum x y, false)
  | .cmpltF => (flag32 (f32Lt x y), false)
  | .cmpeqF => (flag32 (f32Eq x y), false)
  | .absF => (f32Abs x, false)
  | .negF => (f32NegF x, false)
  | .cvtIF => (Sys2Proof.Machine.cvtIF x imm.toInt, false)
  | .cvtFI => Sys2Proof.Machine.cvtFI x imm.toInt
  | .fn => (fnValue slot imm.toNat x, false)

/-- One word on one element; a float result that is NaN is 0x7FC0_0000 (R179). -/
def StickArgs.step (a : StickArgs) (slot : Nat → List Byte) (r : StickRun) (p : TypedOp) : StickRun :=
  let o := p.1
  match stickFnOf o.op with
  | none => r
  | some f =>
    let v := f.run slot o.sh o.imm (a.value r o.imm o.x) (a.value r o.imm o.y) (a.value r o.imm o.z)
    let w := if p.2 && f32IsNaN v.1 then f32NaN else v.1
    let r := { r with sats := r.sats + if v.2 then 1 else 0 }
    if o.dst < 8 then { r with temps := r.temps.set o.dst w } else { r with outs := r.outs.set (o.dst - 8) w }

/-- A stick on one element: the temporaries start anew (R178). -/
def StickArgs.run (a : StickArgs) (slot : Nat → List Byte) (ops : List TypedOp) : StickRun :=
  ops.foldl (a.step slot) {}

/-- Table slots that a stick names (R205). -/
def stickSlots (ops : List TypedOp) : List Nat :=
  ops.filterMap fun o => if stickFnOf o.1.op = some .fn ∧ 8 ≤ o.1.imm.toNat then some (o.1.imm.toNat - 8) else none

end Sys2Proof.Machine
end

