-- ==== Sys2Proof/Machine/Engine.lean ====
section
/-! DEFINITION. What the engines of a bed share: writes that land whole or not at all, rows of a batch, elements of
a stream, the fault of a refused or stopped descriptor (R164 to R177, R193, R196). -/

namespace Sys2Proof.Machine

/-- Why a unit's access stops its descriptor: the code and the address. -/
abbrev Stopped := Nat × Nat

/-- Do a step on each item of a list, in order, up to the first error. -/
def State.eachOf {α β : Type} (f : State → α → State × Except Stopped β) :
    State → List α → State × Except Stopped (List β)
  | s, [] => (s, .ok [])
  | s, a :: r =>
    match f s a with
    | (s, .error e) => (s, .error e)
    | (s, .ok b) =>
      match State.eachOf f s r with
      | (s, .error e) => (s, .error e)
      | (s, .ok l) => (s, .ok (b :: l))

/-! ### Reads and writes of a bed's units -/

/-- A read by bed b's units (Table EL-2, R174). -/
def State.bedRead (s : State) (b : Nat) (who : BitVec 8) (addr len : Nat) : State × Except Stopped (List Byte) :=
  let r := s.mread (4 + b) who (addr % 2 ^ 64) len
  (r.1, r.2.mapError fun c => (c, addr))

/-- Bytes to write at an address. -/
abbrev Put := Nat × List Byte

/-- A write cut at 64-byte lines (DESIGN CHOICE, log 12). -/
def linePieces : Nat → Put → List Put
  | 0, _ => []
  | n + 1, (a, l) =>
    if l.isEmpty then []
    else
      let k := pieceLen a l.length
      (a, l.take k) :: linePieces n (a + k, l.drop k)

/-- All pieces of a list of writes. -/
def putPieces (ws : List Put) : List Put := ws.flatMap fun w => linePieces (w.2.length / 64 + 2) (w.1 % 2 ^ 64, w.2)

/-- The request of a write's piece. -/
def putRq (b : Nat) (who : BitVec 8) (w : Put) : Rq :=
  { unitRq (4 + b) who true with addr := w.1, len := w.2.length }

/-- Whether the target of a piece accepts it (DESIGN CHOICE, log 12); a piece for another device goes there as a request
and waits for its answer (R152, R256, log 145). -/
def State.offerPut (s : State) (b : Nat) (who : BitVec 8) (w : Put) : State × Except Stopped Unit :=
  let r := putRq b who w
  match s.place r with
  | (s, .error d) => (s.denied r d, .error (d.1, w.1))
  | (s, .ok (.remote _)) =>
    (match s.writePiece r w.2 with
     | (s, some c) => (s, .error (c, w.1))
     | (s, none) => (s, .ok ()))
  | (s, .ok _) => (s, .ok ())

/-- An accepted piece lands. -/
def State.landPut (s : State) (b : Nat) (who : BitVec 8) (w : Put) : State :=
  let r := putRq b who w
  match s.resolve r with
  | .ok (.mem k) => s.storeKey r k w.2
  | _ => s

/-- Write a group, a tile or a row: all of it once every piece is accepted, else nothing (R140, R174). -/
def State.putAll (s : State) (b : Nat) (who : BitVec 8) (ws : List Put) : State × Except Stopped Unit :=
  let ps := putPieces ws
  match s.eachOf (fun s w => s.offerPut b who w) ps with
  | (s, .error e) => (s, .error e)
  | (s, .ok _) => (ps.foldl (fun s w => s.landPut b who w) s, .ok ())

/-! ### Rows (R170, R171) -/

/-- The rows of row mode: per row its slot, or none for a masked row, and the elements of each. -/
structure Rows where
  part : Nat
  slots : List (Option Nat)
  perRow : Nat
  deriving DecidableEq, Repr

/-- The batch bound under a tag in partition p's open step, the last one bound (R170, DESIGN CHOICE, log 135). -/
def State.openBatch (s : State) (p tag : Nat) : Option Batch :=
  if (s.step1 p).isOpen then
    s.streams.batches.reverse.find? fun b => decide (b.part.val = p) && decide (b.tag.toNat = tag)
  else none

/-- Rows of the batch under a tag, for `vl` elements. -/
def State.rowsOf (s : State) (p tag vl : Nat) : Option Rows :=
  (s.openBatch p tag).map fun b =>
    { part := p, slots := b.rows.map fun r => r.map (·.2), perRow := vl / b.rows.length }

/-- Where an operand's bytes lie. -/
inductive Spot where
  /-- A masked row: reads zero, writes are discarded (R60). -/
  | masked
  /-- At or beyond byte H of a half (R171). -/
  | past
  | at_ (addr : Nat)
  deriving DecidableEq, Repr

/-- Bytes o to o + len − 1 of a half of row r's slot; the view is that of the address (R171). A row beyond the
batch's is masked (DESIGN CHOICE, log 45). -/
def State.rowSpot (s : State) (rw : Rows) (addr r o len : Nat) : Spot :=
  match rw.slots.getD r none with
  | none => .masked
  | some k =>
    if o + len > s.halfSize rw.part then .past
    else .at_ (addr - addr % 2 ^ 24 + s.slotOff rw.part k + o)

/-- Offset in the half that a region 1 address gives (R171). -/
def rowOffset (addr : Nat) : Nat := addr % 2 ^ 16

/-- The batch row in whose slot's working half a write falls, and the region 1 offset of the half's first byte (R396,
Table TF-3; DEDUCED, log 148). -/
def State.workingRow (s : State) (rw : Rows) (addr : Nat) : Option (Nat × Nat) :=
  if s.inStore addr && decide (bits addr 25 24 = 2) then
    let o := addr % 2 ^ 24
    (rw.slots.findIdx? fun k => match k with
      | some i => decide (s.slotOff rw.part i ≤ o) && decide (o < s.slotOff rw.part i + s.slotSize rw.part)
      | none => false).map fun r => (r, 2 ^ 25 + s.slotOff rw.part ((rw.slots.getD r none).getD 0))
  else none

/-- A row written once more moves behind the other events of its descriptor (R396). -/
def markRow (l : List Mark) (x : Nat × Nat) : List Mark :=
  (l.filter fun m => decide (m ≠ .row x.1 x.2)) ++ [.row x.1 x.2]

/-- The rows of a group, a tile or a carry have been written by queue q's descriptor (R396). -/
def State.markRows (s : State) (q : Nat) (rows : Option Rows) (ws : List Put) : State :=
  match rows with
  | none => s
  | some rw => s.mapRun q fun r => { r with marks := (ws.filterMap fun w => s.workingRow rw w.1).foldl markRow r.marks }

/-- Write a group, a tile or a row of queue q's descriptor, and keep which rows of its batch were written. -/
def State.putRows (s : State) (q b : Nat) (who : BitVec 8) (rows : Option Rows) (ws : List Put) :
    State × Except Stopped Unit :=
  match s.putAll b who ws with
  | (s, .error e) => (s, .error e)
  | (s, .ok _) => (s.markRows q rows ws, .ok ())

/-! ### Elements (R164, R165, R171, R172) -/

/-- A stream of elements: its format code without `REP`; 0 for an unused one. -/
structure Stream where
  addr : Nat
  code : Nat
  rep : Bool := false
  deriving DecidableEq, Repr

/-- The stream of a 4-bit code of `SFMT`. -/
def streamOf (code addr : Nat) : Stream :=
  if code ≥ 9 then { addr, code := code - 8, rep := true } else { addr, code }

/-- Where element i of a stream lies. -/
def State.elemSpot (s : State) (rows : Option Rows) (st : Stream) (i : Nat) : Spot :=
  let z := formatSize st.code
  match rows with
  | none => .at_ (st.addr + i * z)
  | some rw =>
    if s.inStore st.addr then
      s.rowSpot rw st.addr (i / rw.perRow) (rowOffset st.addr + i % rw.perRow * z) z
    else .at_ (st.addr + (if st.rep then i % rw.perRow else i) * z)

/-- The lane of an element's bytes, and whether its conversion saturates (Table EL-1, R176). -/
def laneOf (code : Nat) (l : List Byte) : W32 × Bool :=
  match code with
  | 1 => (BitVec.ofInt 32 (signedOf 8 (leNat l)), false)
  | 2 => (BitVec.ofInt 32 (signedOf 16 (leNat l)), false)
  | 5 => accToS32 (signedOf 48 (leNat l)) 0x8000 (-15) 0
  | 6 => accToF32 (signedOf 48 (leNat l)) 0x8000 (-15)
  | _ => (BitVec.ofNat 32 (leNat l), false)

/-- Read the lane of element i; an unused stream gives zero. -/
def State.readLane (s : State) (b : Nat) (who : BitVec 8) (rows : Option Rows) (i : Nat) (st : Stream) :
    State × Except Stopped (W32 × Bool) :=
  if st.code = 0 then (s, .ok (0, false))
  else match s.elemSpot rows st i with
    | .masked => (s, .ok (0, false))
    | .past => (s, .error (0x0504, st.addr))
    | .at_ a =>
      let r := s.bedRead b who a (formatSize st.code)
      (r.1, r.2.map (laneOf st.code))

/-- Bytes of a lane written in a format, and whether it is clamped (R181). -/
def narrow (code : Nat) (v : W32) : List Byte × Bool :=
  let clamp (w : Nat) : List Byte × Bool :=
    let x := v.toInt
    let y := Max.max (-(2 ^ (w - 1))) (Min.min x (2 ^ (w - 1) - 1))
    (natLe (BitVec.ofInt w y).toNat (w / 8), decide (x ≠ y))
  match code with
  | 1 => clamp 8
  | 2 => clamp 16
  | _ => (natLe v.toNat 4, false)

/-- The write of element i of an output stream; none in a masked row. -/
def State.elemPut (s : State) (rows : Option Rows) (st : Stream) (i : Nat) (l : List Byte) :
    Except Stopped (Option Put) :=
  match s.elemSpot rows st i with
  | .masked => .ok none
  | .past => .error (0x0504, st.addr)
  | .at_ a => .ok (some (a, l))

/-- The elements of group g (R164). -/
def groupElems (vl g : Nat) : List Nat := (List.range 128).filterMap fun l =>
  if 128 * g + l < vl then some (128 * g + l) else none

/-- Mask or flag bits of the elements of group g: bit i at bit i mod 8 of byte ⌊i ÷ 8⌋ (R185). -/
def State.readBits (s : State) (b : Nat) (who : BitVec 8) (addr vl g : Nat) : State × Except Stopped (List Bool) :=
  let n := (groupElems vl g).length
  let r := s.bedRead b who (addr + 16 * g) ((n + 7) / 8)
  (r.1, r.2.map fun l => (List.range n).map fun k => (field l (k / 8) 1).testBit (k % 8))

/-- Do the groups in order; an error stops at its group (R174). -/
def State.overGroups {σ : Type} (f : State → σ → Nat → State × Except Stopped σ) :
    State → σ → List Nat → State × σ × Option (Stopped × Nat)
  | s, x, [] => (s, x, none)
  | s, x, g :: r =>
    match f s x g with
    | (s, .error e) => (s, x, some (e, g))
    | (s, .ok y) => State.overGroups f s y r

/-! ### Faults (R163, R196, R222) -/

/-- Raise a fault of a bed's engine: the bed as unit, the descriptor's ring address. -/
def State.bedFault (s : State) (q : Nat) (d : Desc) (code det0 : Nat) : State :=
  s.raise code (s.qWho q) (s.qBed q) (s.qEntry q d.index.toNat) det0

/-- A refusal at a dispatch check of an engine. -/
def State.bedRefuse (s : State) (q : Nat) (d : Desc) (code : Nat) (det0 : Nat := 0) : State :=
  (s.bedFault q d code det0).finishFault q code 0

/-- A descriptor stops on an error response or a 0x0504, which the engine raises itself (R174). -/
def State.bedStop (s : State) (q : Nat) (d : Desc) (code detail : Nat) : State :=
  (if code = 0x0504 then s.bedFault q d code 0 else s).finishFault q code detail

/-- Count saturated results (R177). -/
def State.countSats (s : State) (b n : Nat) : State := if n = 0 then s else s.bump 0x7030 (b + 1) n

/-- Row r of the batch is masked (R60). Nothing that saturates there is counted (R177; DEDUCED, log 60). -/
def rowMasked (rows : Option Rows) (r : Nat) : Bool :=
  match rows with
  | some rw => (rw.slots.getD r none).isNone
  | none => false

/-! ### Checks that the engines share (R166, R171, R192) -/

/-- An address with its chip written out, so that two names of one place are equal. -/
def State.canonical (s : State) (a : Nat) : Nat :=
  if a.testBit 60 then s.chip.toNat * 2 ^ 53 + a % 2 ^ 53 else a % 2 ^ 60

/-- Bytes that a stream spans, of `vl` elements, `e` in a row. -/
def State.spanOf (s : State) (vl e : Nat) (rowMode : Bool) (st : Stream) : Nat :=
  (if rowMode && (st.rep || s.inStore st.addr) then e else vl) * formatSize st.code

/-- Two streams overlap. -/
def State.overlaps (s : State) (vl e : Nat) (rowMode : Bool) (x y : Stream) : Bool :=
  decide (x.code ≠ 0) && decide (y.code ≠ 0) &&
    decide (s.canonical x.addr < s.canonical y.addr + s.spanOf vl e rowMode y) &&
    decide (s.canonical y.addr < s.canonical x.addr + s.spanOf vl e rowMode x)

/-- An output works in place on an input (R166). -/
def State.inPlace (s : State) (o x : Stream) : Bool :=
  decide (s.canonical o.addr = s.canonical x.addr) && decide (o.code = x.code) && !x.rep

/-- No output overlaps an input but in place. -/
def State.outputClear (s : State) (vl e : Nat) (rowMode : Bool) (ins : List Stream) (o : Stream) : Bool :=
  ins.all fun x => s.inPlace o x || !s.overlaps vl e rowMode o x

/-- The address of a stream in region 1 has bits [23:16] zero (R171). -/
def State.viewOk (s : State) (addr : Nat) : Bool := !s.inStore addr || decide (bits addr 23 16 = 0)

/-- A span lies within an operand cache if it starts in one (R192). -/
def cacheExtentOk (addr len : Nat) : Bool :=
  !(decide (16 ≤ regionOf addr) && decide (regionOf addr < 20)) || decide (bits addr 47 0 + len ≤ 2 ^ 18)

/-- A format code stands where Table EL-1 allows it: codes 5 and 6 in regions 12 to 15. -/
def formatPlaceOk (code addr : Nat) : Bool :=
  !(code = 5 || code = 6) || (decide (12 ≤ regionOf addr) && decide (regionOf addr < 16))

/-- Elements of a row for the checks that precede the batch check (DESIGN CHOICE, log 46). -/
def State.rowLen (s : State) (q : Nat) (d : Desc) (vl : Nat) : Nat :=
  match s.rowsOf (s.qPart q) d.tag vl with
  | some rw => rw.perRow
  | none => 0

/-- Check 2 of Table EL-6: a non-zero tag names a batch bound in the partition's open step (R170). -/
def State.tagBound (s : State) (q : Nat) (d : Desc) : Bool :=
  decide (d.tag = 0) || (s.openBatch (s.qPart q) d.tag).isSome

/-- Checks 2 and 3 of Table EL-6: the batch of a non-zero tag, and the length; the rows of row mode. -/
def State.rowsAndLength (s : State) (q : Nat) (d : Desc) (vl : Nat) : Except Nat (Option Rows) :=
  if d.tag = 0 then
    (if 1 ≤ vl ∧ vl ≤ 2 ^ 24 then .ok none else .error 0x0602)
  else match s.openBatch (s.qPart q) d.tag with
    | none => .error 0x0206
    | some b =>
      if 1 ≤ vl ∧ vl ≤ 2 ^ 24 ∧ vl % b.rows.length = 0 then .ok (s.rowsOf (s.qPart q) d.tag vl)
      else .error 0x0602

/-! ### Sticks in memory (R178) -/

/-- Read n operation words. -/
def State.readStick (s : State) (b : Nat) (who : BitVec 8) (addr n : Nat) :
    State × Except Stopped (List StickOp) :=
  let r := s.bedRead b who addr (8 * n)
  (r.1, r.2.map fun l => (List.range n).map fun i => stickOpOf (field l (8 * i) 8))

/-- Read operation words up to the one with `LAST` set, at most n. -/
def State.readStickLast (s : State) (b : Nat) (who : BitVec 8) (acc : List StickOp) :
    Nat → Nat → State × Except Stopped (List StickOp)
  | 0, _ => (s, .ok acc)
  | n + 1, addr =>
    match s.readStick b who addr 1 with
    | (s, .error e) => (s, .error e)
    | (s, .ok ops) =>
      if ops.any (·.last) then (s, .ok (acc ++ ops)) else s.readStickLast b who (acc ++ ops) n (addr + 8)

/-- Valid table slots of a bed. -/
def State.validTables (s : State) (b : Nat) : List Nat :=
  (List.range 8).filter fun t => decide (tget s.tables (8 * b + t) [] ≠ [])

/-- Every table slot that a stick names by its number is partition p's (R284). -/
def State.ownsTables (s : State) (p b : Nat) (ops : List StickOp) : Bool :=
  ops.all fun o => decide (stickFnOf o.op ≠ some .fn) || decide (o.imm.toNat < 8) || decide (16 ≤ o.imm.toNat) ||
    s.owns p 10 (8 * b + (o.imm.toNat - 8))

/-- Image of a bed's table slot. -/
def State.tableImage (s : State) (b t : Nat) : List Byte := tget s.tables (8 * b + t) []

/-- Type of a stream's lane. -/
def laneType (code : Nat) : Option LaneType :=
  if code = 0 then none else if formatFloat code then some .float else some .int

end Sys2Proof.Machine
end

