-- ==== Sys2Proof/Machine/CacheOps.lean ====
section
/-! DEFINITION. CACHE_FILL, CACHE_EVICT and TABLE_LOAD (R190 to R192, R203 to R205). -/

namespace Sys2Proof.Machine

/-- Address of an offset of bed b's operand cache. -/
def cacheAddr (b off : Nat) : Nat := localAddr (16 + b) off

/-- Copy n 64-byte beats by bed b's units; the beats before an error are written (DESIGN CHOICE, log 52). -/
def State.copyBeats (s : State) (q b : Nat) (who : BitVec 8) (rows : Option Rows) (src dst : Nat) :
    Nat → State × Except Stopped Unit
  | 0 => (s, .ok ())
  | n + 1 =>
    match s.bedRead b who src 64 with
    | (s, .error e) => (s, .error e)
    | (s, .ok l) =>
      match s.putRows q b who rows [(dst, l)] with
      | (s, .error e) => (s, .error e)
      | (s, .ok _) => s.copyBeats q b who rows (src + 64) (dst + 64) n

/-- The end of a cache descriptor. -/
def State.cacheEnd (q : Nat) (d : Desc) (r : State × Except Stopped Unit) : State :=
  match r with
  | (s, .error e) => s.bedStop q d e.1 0
  | (s, .ok _) => s.finish q 0 0 0

/-- The range of a cache descriptor is not empty and within the cache (R192). -/
def cacheRangeOk (off len : Nat) : Bool := decide (len ≠ 0) && decide (off + len ≤ 2 ^ 18)

/-- Checks 2 and 5 of Table EL-6 on a cache descriptor, then its work. -/
def State.cacheChecked (s : State) (q : Nat) (d : Desc) (off len : Nat)
    (work : State → State × Except Stopped Unit) : State :=
  if !s.tagBound q d then s.bedRefuse q d 0x0206
  else if cacheRangeOk off len then State.cacheEnd q d (work s)
  else s.bedRefuse q d 0x0603

/-- CACHE_FILL (R190). -/
def execCacheFill (q : QueueId) (s : State) : Host.Outcome State Fault Refusal :=
  done (s.serve q (fun d => d.opc = 0x42)
    (fun _ d => firstBad [need (decide (d.f 24 4 % 64 = 0)) 24, need (decide (d.f 28 4 % 64 = 0)) 28])
    (fun t d =>
      t.cacheChecked q d (d.f 24 4) (d.f 28 4) fun t =>
        t.copyBeats q (t.qBed q) (t.qWho q) none (d.f 16 8) (cacheAddr (t.qBed q) (d.f 24 4)) (d.f 28 4 / 64)))

/-- Write back, then zero the range. -/
def State.evict (s : State) (q b : Nat) (who : BitVec 8) (d : Desc) : State × Except Stopped Unit :=
  let a := cacheAddr b (d.f 16 4)
  let zero (s : State) : State × Except Stopped Unit := s.putAll b who [(a, zeros (d.f 20 4))]
  if d.f 24 8 = 0 then zero s
  else match s.copyBeats q b who (s.rowsOf (s.qPart q) d.tag 0) a (d.f 24 8) (d.f 20 4 / 64) with
    | (s, .error e) => (s, .error e)
    | (s, .ok _) => zero s

/-- CACHE_EVICT (R190). -/
def execCacheEvict (q : QueueId) (s : State) : Host.Outcome State Fault Refusal :=
  done (s.serve q (fun d => d.opc = 0x43)
    (fun _ d => firstBad [need (decide (d.f 16 4 % 64 = 0)) 16, need (decide (d.f 20 4 % 64 = 0)) 20])
    (fun t d => t.cacheChecked q d (d.f 16 4) (d.f 20 4) fun t => t.evict q (t.qBed q) (t.qWho q) d))

/-- The post-operation of a running MATMUL names a table slot of bed b (R205). -/
def State.tablesInUse (s : State) (b : Nat) : Bool :=
  s.queues.any fun e => match e.2.run with
    | some r => r.slots.any fun x => decide (x / 8 = b)
    | none => false

/-- Read the image, and after check 2 of Table EL-6, which follows R203's (R221), make it the slot's when the descriptor
ends (R203, R204). -/
def State.loadTable (s : State) (q : Nat) (d : Desc) : State :=
  if d.f 32 4 ≠ tableLen then s.bedRefuse q d 0x0701
  else match s.bedRead (s.qBed q) (s.qWho q) (d.f 24 8) tableLen with
    | (s, .error e) => s.bedStop q d e.1 0
    | (s, .ok img) =>
      if !tableOk img then s.bedRefuse q d 0x0701
      else if !s.tagBound q d then s.bedRefuse q d 0x0206
      else
        (s.finish q 0 0 0).mapRun q fun r => { r with table := some (8 * s.qBed q + d.f 16 1, img) }

/-- TABLE_LOAD; it waits at dispatch while a MATMUL dispatched before it names a table slot of its bed (R205). -/
def execTableLoad (q : QueueId) (s : State) : Host.Outcome State Fault Refusal :=
  done (s.serve q (fun d => d.opc = 0x50 && !s.tablesInUse (s.qBed q))
    (fun t d => need (decide (d.f 16 1 < 8) && t.owns (t.qPart q) 0xA (8 * t.qBed q + d.f 16 1)) 16)
    (fun t d => t.loadTable q d))

end Sys2Proof.Machine
end

