-- ==== Sys2Proof/Machine/Dictionary.lean ====
section
/-! DEFINITION. The object dictionary: the value of every object as it is read, and every write with its range,
state and busy checks (R318 to R333, Tables OD-4 to OD-8, KP-9 and the tables of the units). -/

namespace Sys2Proof.Machine

/-! ### Records (Table OD-9, R316) -/

/-- A fault record of 64 bytes (Table OD-9). -/
def FaultRecord.image (r : FaultRecord) : List Byte :=
  natLe r.code.toNat 2 ++ [r.sev, r.part] ++ natLe r.unit.toNat 2 ++ [r.chip.setWidth 8, 0] ++ natLe r.epoch.toNat 6
    ++ zeros 2 ++ natLe r.phase.toNat 4 ++ natLe r.cycle.toNat 8 ++ natLe r.seq.toNat 4 ++ natLe r.addr.toNat 8
    ++ natLe r.det0.toNat 8 ++ natLe r.det1.toNat 8 ++ zeros 8

/-- An entry of the alert ring of 32 bytes (R316). -/
def Alert.image (a : Alert) : List Byte :=
  natLe a.seq.toNat 4 ++ natLe a.epoch.toNat 6 ++ natLe a.phase.toNat 3 ++ [BitVec.ofNat 8 a.part.val] ++ zeros 2
    ++ natLe a.word.toNat 8 ++ zeros 8

/-- `SEQ` of the oldest unread fault record; the next `SEQ` when none is unread. -/
def State.oldestFault (s : State) : W32 := (s.faults.log.head?.map (·.seq)).getD s.faults.nextSeq

/-- `SEQ` of the oldest unread alert; the next when none is unread (Table KP-8). -/
def State.oldestAlert (s : State) : W32 := (s.alerts.ring.head?.map (·.seq)).getD s.alerts.nextSeq

/-! ### Reading -/

/-- ASCII bytes of a string. -/
def asciiBytes (t : String) : List Byte := t.toList.map fun c => BitVec.ofNat 8 c.toNat

/-- Code of a device state (object 0x1001). -/
def DevState.code : DevState → Nat
  | .off => 0
  | .reset => 1
  | .boot => 2
  | .config => 3
  | .ready => 4
  | .run => 5
  | .rest => 6
  | .fault => 7

/-- Code of a port state (Table TL-5). -/
def LinkState.code : LinkState → Nat
  | .disabled => 0
  | .training => 1
  | .init => 2
  | .up => 3
  | .down => 4

/-- Status of a function table slot: valid, owner and `ULP` (R204). -/
def State.tableStatus (s : State) (i : Nat) : Nat :=
  let own := (s.owner 0xA i).getD 0 * 2 ^ 28
  match tget s.tables i [] with
  | [] => own
  | img => 2 ^ 31 + own + field img 32 2

/-- Free slots of a partition (object 0x4020 + p:0A). -/
def State.freeSlots (s : State) (p : Nat) : Nat := ((List.range (s.slotCount p)).filter (s.slotFree p)).length

/-- Values that a unit holds elsewhere than in the object. -/
def State.objNow (s : State) (i j : Nat) : Nat :=
  match i with
  | 0x1001 => s.power.dev.code
  | 0x1005 =>
    let v := (Config.spares (j - 1)).toNat
    v / 256 % 9 * 256 + v % 256 % 9
  | 0x1006 => Config.serialNumber.toNat
  | 0x1007 => s.chip.toNat
  | 0x1008 => s.power.straps.bootSel.toNat + 4 * b2n s.power.straps.testN
  | 0x1100 => s.node
  | 0x1103 => if j = 1 then s.kpp.clients.length else s.obj i j
  | 0x2003 =>
    match j with
    | 1 => s.tracker.state.code
    | 2 => s.epoch.toNat
    | 3 => s.phase
    | _ => s.tracker.period
  | 0x2100 => if j = 1 then leNat (s.pageBytes 1) else (s.pageHead 1).toNat
  | 0x2101 => if j = 1 then leNat (s.pageBytes 2) else (s.pageHead 2).toNat
  | 0x2203 => if j = 1 then (s.power.temperature % 2 ^ 32).toNat else s.obj i j
  | 0x30F0 => if j = 1 then b2n (!s.scrubs.isEmpty) else s.scrubLeft
  | 0x3300 =>
    if j = 2 then ((List.range 8).map fun k => (s.link k).state.code * 16 ^ k).sum else s.obj i j
  | 0x5000 => s.tableStatus (j - 1)
  | 0x7000 =>
    match j with
    | 2 => s.faults.log.length
    | 3 => s.oldestFault.toNat
    | 4 => s.faults.nextSeq.toNat
    | _ => s.obj i j
  | 0x7002 => leNat ((s.faults.lastFatal.map FaultRecord.image).getD (zeros 64))
  | 0x7F00 => if j = 3 then s.imageVersion 1 else if j = 4 then s.imageVersion 2 else s.obj i j
  | _ =>
    if 0x2110 ≤ i ∧ i < 0x2130 then
      let t := s.timer (i - 0x2110)
      match j with
      | 1 => b2n t.running + 2 * b2n t.expired
      | 2 => (s.timerValue (i - 0x2110)).1.toNat
      | 3 => (s.timerValue (i - 0x2110)).2.toNat
      | _ => t.limit.toNat
    else if 0x4020 ≤ i ∧ i < 0x4028 ∧ j = 0xA then s.freeSlots (i - 0x4020)
    else if i = 0x7053 ∨ (0x7061 ≤ i ∧ i ≤ 0x7066) then tget s.captured (objKey i j) 0
    else s.obj i j

/-- The bytes of an object's value. -/
def State.objBytes (s : State) (i j : Nat) : List Byte :=
  match i with
  | 0x1002 => asciiBytes "CZ-SX4-16C"
  | 0x2100 => if j = 1 then s.pageBytes 1 else natLe (s.pageHead 1).toNat 16
  | 0x2101 => if j = 1 then s.pageBytes 2 else natLe (s.pageHead 2).toNat 16
  | 0x6010 => s.alerts.ring.flatMap Alert.image
  | 0x7001 => s.faults.log.flatMap FaultRecord.image
  | _ => natLe (s.objNow i j) (((objRow i j).map (·.bytes)).getD 0)

/-- The power domain of the unit that holds an object, if it may be off while the Keeper serves (Table PW-1): a table
slot's Element Engine, a link delay's ports; the Keeper itself holds the others (DEDUCED, log 146). -/
def objDomain (i j : Nat) : Nat :=
  if i = 0x5000 then bedDomain ((j - 1) / 8) + 1
  else if i = 0x3300 ∧ 0x10 ≤ j ∧ j < 0x18 then 46 + (j - 0x10) / 4
  else 0

/-- The object's power domain is on (Table KP-5, check 10). -/
def State.objPowered (s : State) (i j : Nat) : Bool := s.isOn (objDomain i j)

/-- The Keeper reaches an object: those in register space through the matrix, which answers with an error response unless
its domain is on; the others in its own SRAM, with a word in error or not (Table KP-5, check 12; DEDUCED, log 146). -/
def State.keeperReaches (s : State) (i j : Nat) : State × Bool :=
  if i = 0x2100 ∨ i = 0x2101 ∨ i = 0x3200 then (s, s.isOn 1)
  else s.eccRead deviceWide (keeperKey (Config.objectWord (objKey i j)).toNat) 8

/-! ### Acknowledgements (R317, R333) -/

/-- Whether an acknowledgement of A, given the oldest unread number and the next, is taken: none out of range. -/
def ackJudge (a oldest next : W32) : Option Bool :=
  let n := (a - oldest).toNat
  if n = 0 || n ≥ 2 ^ 31 then some false
  else if n ≤ (next - oldest).toNat then some true
  else none

/-- A number lies before A in modular order. -/
def seqBefore (q a : W32) : Bool := decide (q ≠ a) && decide ((a - q).toNat < 2 ^ 31)

/-- A write of A to object 0x7000:06 (R333). -/
def State.faultAck (s : State) (a : W32) : State × Nat :=
  match ackJudge a s.oldestFault s.faults.nextSeq with
  | none => (s, 0x06)
  | some false => (s, 0)
  | some true => ({ s with faults := { s.faults with log := s.faults.log.filter fun r => !seqBefore r.seq a } }, 0)

/-- A write of A to object 0x6010:02 (R317). -/
def State.alertAck (s : State) (a : W32) : State × Nat :=
  match ackJudge a s.oldestAlert s.alerts.nextSeq with
  | none => (s, 0x06)
  | some false => (s, 0)
  | some true => ({ s with alerts := { s.alerts with ring := s.alerts.ring.filter fun r => !seqBefore r.seq a } }, 0)

/-- FAULT_ACKNOWLEDGE (R333). -/
def execFaultAcknowledge (a : W32) (s : State) : Host.Outcome State Fault Refusal := done (s.answered (s.faultAck a))

/-- ALERT_ACKNOWLEDGE (R317). -/
def execAlertAcknowledge (a : W32) (s : State) : Host.Outcome State Fault Refusal := done (s.answered (s.alertAck a))

/-! ### Writing -/

/-- Store a value if it is in range. -/
def State.setIf (s : State) (ok : Bool) (i j v : Nat) : State × Nat := if ok then (s.setObj i j v, 0) else (s, 0x06)

/-- A write of 1 to an object that acts, none for 0 (BOOL). -/
def State.actIf (s : State) (v : Nat) (f : State → State × Nat) : State × Nat :=
  match v with
  | 0 => (s, 0)
  | 1 => f s
  | _ => (s, 0x06)

/-- Communication and the cyclic exchange (Table KP-9). -/
def State.putComm (s : State) (i j v : Nat) : State × Nat :=
  match i, j with
  | 0x1101, 1 => s.setIf (decide (v ∈ [125000, 250000, 500000, 1000000])) i j v
  | 0x1101, 2 => s.setIf (decide (v ∈ [1000000, 2000000, 4000000, 5000000, 8000000])) i j v
  | 0x1101, 3 => s.setIf (decide (v ≤ 1)) i j v
  | 0x1101, _ => s.actIf v fun s => (s, 0)
  | 0x1103, 2 => s.setIf (decide (1 ≤ v) && decide (v ≤ 3600)) i j v
  | 0x1103, _ => s.setIf (decide (10 ≤ v) && decide (v ≤ 60000)) i j v
  | 0x1104, 1 => s.setIf (decide (v ≤ 1)) i j v
  | 0x1104, _ => s.setIf (decide (100 ≤ v) && decide (v ≤ 1000000)) i j v
  | 0x1105, 1 => s.setIf (decide (v ≤ 127)) i j v
  | 0x1105, 2 => s.setIf (decide (1 ≤ v) && decide (v ≤ 60000)) i j v
  | 0x1105, 3 => s.setIf (decide (v < s.obj 0x1105 4)) i j v
  | 0x1105, 4 => s.setIf (decide (s.obj 0x1105 3 < v) && decide (v < 2 ^ 20)) i j v
  | 0x6002, 1 => s.setIf (decide (v % 64 = 0)) i j v
  | 0x6002, 2 => s.setIf (decide (bits v 7 6 = 0) && decide (v < 2 ^ 10)) i j v
  | 0x6002, 3 => s.setIf (decide (v ≤ 7)) i j v
  | 0x6010, _ => s.alertAck (BitVec.ofNat 32 v)
  | _, _ => (s.setObj i j v, 0)

/-- A write of a page, by its entry bytes or its header (R327). -/
def State.putPage (s : State) (n j : Nat) (l : List Byte) : State × Nat :=
  if !s.pageOpen n then (s, 0x09)
  else if j = 2 then (s.setPageHead n (leNat l), 0)
  else ((List.range 1024).foldl (fun s k => s.setPageEntry n k (field l (16 * k) 16)) s, 0)

/-- Epoch and Almanac (Table OD-5). -/
def State.putEpoch (s : State) (i j v : Nat) (l : List Byte) : State × Nat :=
  match i, j with
  | 0x2000, 1 => s.setIf (decide (v ≤ 3)) i j v
  | 0x2000, 2 => s.setIf (decide (v ≤ 4)) i j v
  | 0x2000, 3 => s.setIf (decide (v ≤ 1)) i j v
  | 0x2000, _ => if v ≤ 1 then s.startTracker v else (s, 0x06)
  | 0x2001, _ => s.setIf (decide (100000 ≤ v) && decide (v ≤ 1000000000)) i j v
  | 0x2002, _ => s.setIf (decide (v < 2 ^ 48)) i j v
  | 0x2005, _ => s.hostMark l
  | 0x2006, 1 => s.setIf (decide (v ≤ 127)) i j v
  | 0x2006, 2 => s.setIf (decide (v ≤ 7)) i j v
  | 0x2007, _ => s.setIf (decide (v = 0)) i j v
  | 0x2100, _ => s.putPage 1 j l
  | 0x2101, _ => s.putPage 2 j l
  | 0x2103, _ => s.exchangeWrite v
  | 0x2104, _ => s.setIf (decide (v ≤ 7)) i j v
  | _, _ => (s.setObj i j v, 0)

/-- Power, Rest and the host port (Tables OD-6, PW-11, R349). -/
def State.putPower (s : State) (i j v : Nat) : State × Nat :=
  match i, j with
  | 0x2200, _ => s.domainWrite (j - 1) v
  | 0x2202, 1 => if v ≤ 1 then s.restWrite v else (s, 0x06)
  | 0x2202, 5 => s.actIf v fun s => (s, 0)
  | 0x2202, 6 => s.setIf (decide (v % 2 ^ 21 = 0) && decide (v < 2 ^ 48)) i j v
  | 0x2202, _ => s.setIf (decide (v ≤ 15)) i j v
  | 0x2203, 2 =>
    s.setIf (decide (0 ≤ signedOf 32 v) && decide (signedOf 32 v ≤ 110000) &&
      decide (signedOf 32 v < signedOf 32 (s.obj 0x2203 3))) i j v
  | 0x2203, _ =>
    s.setIf (decide (signedOf 32 (s.obj 0x2203 2) < signedOf 32 v) && decide (signedOf 32 v ≤ 120000)) i j v
  | 0x3500, 1 => s.setIf (decide (v % 2 ^ 16 = 0) && decide (v < 2 ^ 48)) i j v
  | 0x3500, 2 => s.setIf (decide (v ≤ 31) || decide (v = 0xFF)) i j v
  | 0x3500, _ => s.setIf (decide (v % 2 ^ 22 = 0) && decide (v < 2 ^ 48)) i j v
  | _, _ => (s.setObj i j v, 0)

/-- Matrix, Trellis and external memory (Tables MM-7, TL-6, MM-10). -/
def State.putFabric (s : State) (i j v : Nat) (l : List Byte) : State × Nat :=
  match i, j with
  | 0x3200, 0x5B => s.slicesObject l
  | 0x3200, _ =>
    if j ≤ 0x40 then s.setIf (windowConsistent (windowMask v)) i j (windowMask v) else s.setIf (decide (v ≤ 15)) i j v
  | 0x3300, 1 => s.portEnable v
  | 0x3300, 4 => s.setIf (l.all fun b => decide (bits b.toNat 6 3 = 0)) i j v
  | 0x3300, 5 => s.setIf (decide (10 ≤ v) && decide (v ≤ 10000)) i j v
  | 0x3300, 0x20 =>
    if v > 1 then (s, 0x06) else if s.power.dev ≠ .config then (s, 0x09) else (s.setObj i j v, 0)
  | 0x3300, 0x21 => s.recoveryEntry (field l 0 4) (field l 4 4)
  | 0x3300, _ => s.setIf (decide (j < 0x38) || decide (0x40 ≤ j) || decide (v ≤ 127)) i j v
  | 0x3400, 1 => s.onceWrite i j v fun s => s.setIf (decide (v = 0x0F ∨ v = 3)) i j v
  | 0x3400, 2 => s.onceWrite i j v fun s => s.setIf (decide (v ∈ [4267, 5500, 6400, 7500, 8533])) i j v
  | 0x3400, _ => s.onceWrite i j v fun s => s.setIf (decide (v ∈ [8, 12, 16, 24, 32])) i j v
  | _, _ => (s.setObj i j v, 0)

/-- Slot geometry, seed tables and index ranges of partition p (R50, R55, R66, R68). -/
def State.putGeometry (s : State) (p j v : Nat) : State × Nat :=
  let i := 0x4010 + p
  let settle (ok : Bool) : State × Nat :=
    if !ok then (s, 0x06) else if !(s.residentsOf p).isEmpty then (s, 0x09) else (s.setObj i j v, 0)
  match j with
  | 1 => settle (decide (v ≤ 7))
  | 2 => settle (decide (v % 2 ^ 16 = 0) && decide (v ≤ 0xC00000))
  | 3 => settle (decide (v % 2 ^ 16 = 0) && decide (v ≤ 0xC00000))
  | 4 => s.setIf (decide (v % 64 = 0) && (s.localPlace v).isSome) i j v
  | 5 => s.setIf (decide (v % 64 = 0)) i j v
  | 6 => s.setIf (decide (v < Config.streamCount) && decide (v + s.obj i 7 ≤ Config.streamCount)) i j v
  | _ => s.setIf (decide (s.obj i 6 + v ≤ Config.streamCount)) i j v

/-- Trace and firmware (Table OD-7). -/
def State.putTrace (s : State) (i j v : Nat) (l : List Byte) : State × Nat :=
  match i, j with
  | 0x7800, 1 => if v ≤ 1 then (s.traceWrite v, 0) else (s, 0x06)
  | 0x7800, 2 => s.setIf (decide (v ≤ 1)) i j v
  | 0x7800, 3 => s.setIf (decide (10 ≤ v) && decide (v ≤ 20)) i j v
  | 0x7800, 4 => s.traceRing .base v
  | 0x7800, 5 => s.traceRing .size v
  | 0x7F00, 2 => s.nextImage v
  | 0x7F00, 8 => s.blockWriteImage l
  | 0x7F00, 9 => s.setIf (decide (v % 4096 = 0)) i j v
  | _, _ => (s.setObj i j v, 0)

/-- Identity, state and locks (Table OD-4). -/
def State.putIdentity (s : State) (i v : Nat) : State × Nat :=
  match i with
  | 0x1009 => s.stateWrite v
  | 0x1201 => if v > 1 then (s, 0x06) else if v = 1 then s.lockWrite else (s.setObj 0x1201 0 0, 0)
  | 0x1202 => s.debugLock v
  | _ => s.onceWrite 0x1203 0 v fun s => s.setIf (decide (v ≤ 1)) 0x1203 0 v

/-- A fuse write: of the reset value, without effect; else the fuse is set once, in both its copies (R306, R324, R382).
A part that SECURE is set on with the debug lock in force holds its TAP from then on (R405). -/
def State.putFuse (s : State) (j v : Nat) : State × Nat :=
  if v = 0 && decide (objKey 0x7F00 j ∉ s.onceSet) then (s, 0)
  else s.onceWrite 0x7F00 j v fun s =>
    let p := s.setIf (decide (j = 6) || decide (v ≤ 1)) 0x7F00 j v
    let t := { p.1 with power := { p.1.power with fuseCopies := tset p.1.power.fuseCopies (objKey 0x7F00 j) v 0 } }
    (if p.2 ≠ 0 then p.1 else if t.tapHeld then t.tapReset else t, p.2)

/-- The effect of a write whose access kind, lock and length have passed (checks 8 to 11 of Table KP-5). -/
def State.objPut (s : State) (i j : Nat) (l : List Byte) : State × Nat :=
  let v := leNat l
  if i < 0x1100 ∨ (0x1200 ≤ i ∧ i < 0x1300) then s.putIdentity i v
  else if i < 0x1200 ∨ (0x6000 ≤ i ∧ i < 0x7000) then s.putComm i j v
  else if i < 0x2200 then s.putEpoch i j v l
  else if i < 0x3000 ∨ i = 0x3500 then s.putPower i j v
  else if i < 0x3080 then s.partWrite ((i - 0x3000) / 16) j v
  else if i = 0x3100 then s.queueConfig .binding (j - 1) v
  else if i = 0x3101 then s.queueConfig .ringBase (j - 1) v
  else if i = 0x3102 then s.queueConfig .completionBase (j - 1) v
  else if i = 0x3103 then if v ≤ 1 then (s.heldWrite (j - 1) v, 0) else (s, 0x06)
  else if i < 0x3500 then s.putFabric i j v l
  else if i = 0x4000 then s.tableBaseWrite v
  else if i < 0x4020 then s.putGeometry (i - 0x4010) j v
  else if i = 0x7000 then s.faultAck (BitVec.ofNat 32 v)
  else if i = 0x7060 then s.actIf v fun s => (s.auditMark, 0)
  else if i = 0x7F00 ∧ (j = 5 ∨ j = 6) then s.putFuse j v
  else s.putTrace i j v l

/-- The lock object of an LK object, and of what the firmware lock guards, is set (R307). -/
def State.objLocked (s : State) (i j : Nat) (acc : Access) : Bool :=
  if i = 0x7F00 then s.firmwareLocked && decide (j = 2 ∨ j = 8 ∨ j = 9) else s.locked && decide (acc = .lk)

/-- The length of a written value fits its type. -/
def ObjRow.lengthOk (r : ObjRow) (n : Nat) : Bool :=
  if r.bytes = 0 then decide (1 ≤ n) && decide (n ≤ 65536) else decide (n = r.bytes)

/-! ### Partitions of objects (R304, R321) -/

/-- The partition that an object belongs to; none for a device-wide object (R321). -/
def State.objPart (s : State) (i j : Nat) : Option Nat :=
  if 0x4020 ≤ i ∧ i < 0x4028 then some (i - 0x4020)
  else if i = 0x7063 then some (j - 1)
  else if i = 0x3103 ∨ i = 0x7061 then some (s.qPart (j - 1))
  else if i = 0x5000 then s.owner 0xA (j - 1)
  else if i = 0x6000 ∨ i = 0x6003 ∨ i = 0x6010 then some (s.obj 0x6002 3)
  else none

/-- A grant covers an access to an object (R304). -/
def State.granted (s : State) (grant i j : Nat) (isWrite : Bool) : Bool :=
  match s.objPart i j with
  | some p => grant.testBit p
  | none => !isWrite || decide (grant = 0xFF)

end Sys2Proof.Machine
end

