-- ==== Sys2Proof/Machine/Kpp.lean ====
section
/-! DEFINITION. The Kwekoash Parameter Protocol: requests, their checks, clients, segmented transfers, the gateway and
the mailbox (R298 to R311, R325). -/

namespace Sys2Proof.Machine

/-! ### Frames (R300, R302) -/

/-- Payload bytes of a request. -/
def reqBytes (r : KppRequest) : Nat := r.len.toNat % 64
/-- Segment code of a request. -/
def reqSeg (r : KppRequest) : Nat := r.len.toNat / 64
/-- Payload of a request. -/
def reqPayload (r : KppRequest) : List Byte := slice r.payload 0 (reqBytes r)

/-- A response frame (R302). -/
def State.responseTo (s : State) (h : Held) (cmd seg : Nat) (payload : List Byte) : List Byte :=
  [BitVec.ofNat 8 cmd, h.req.client, h.req.txn, s.chip.setWidth 8] ++ natLe h.req.index.toNat 2 ++ [h.req.sub]
    ++ [BitVec.ofNat 8 (64 * seg + payload.length)] ++ payload

/-- What executing a request answers: a segment code and a payload, or an abort code. -/
abbrev Answer := Except Nat (Nat × List Byte)

/-- The frame of an answer (R302). -/
def State.frameOf (s : State) (h : Held) (a : Answer) : List Byte :=
  match a with
  | .ok (seg, l) => s.responseTo h (0x80 + h.cmd.toNat % 64) seg l
  | .error c => s.responseTo h (0xC0 + h.cmd.toNat % 64) 0 [BitVec.ofNat 8 c]

/-- The smallest CAN FD data length that holds n bytes (R300). -/
def canLength (n : Nat) : Nat :=
  (([0, 1, 2, 3, 4, 5, 6, 7, 8, 12, 16, 20, 24, 32, 48, 64]).find? fun k => decide (n ≤ k)).getD 64

/-- Send a CAN FD frame; a chip without a node sends none (R299, R300). -/
def State.sendCan (s : State) (base : Nat) (l : List Byte) : State :=
  if s.node = 0 then s
  else
    let f : CanFrame := {
      ident := BitVec.ofNat 11 (base + s.node), data := slice l 0 (canLength l.length), brs := s.objOn 0x1101 3 }
    { s with outputs := { s.outputs with can := s.outputs.can ++ [f] } }

/-- A response is ready in the mailbox (R311, Table KP-7). -/
def State.mailboxReply (s : State) (h : Held) (l : List Byte) : State :=
  if h.discard then s
  else { s with kpp := { s.kpp with mailboxResponse := l, respValid := true, rtxn := h.req.txn } }.msix 1

/-- The frame of a response as it travels in a KPP_RSP (Table KP-6). -/
def rspFrame (h : Held) (chip : BitVec 7) (l : List Byte) : KppRequest :=
  { transport := h.key.transport, client := h.req.client, txn := h.req.txn, tgt := chip.setWidth 8,
    index := h.req.index, sub := h.req.sub, len := BitVec.ofNat 8 (field l 7 1), payload := l.drop 8, length := 64 }

/-- Deliver a response to where its request entered the system (R310, R311). -/
def State.deliverReply (s : State) (h : Held) (l : List Byte) : State :=
  if h.key.chip ≠ s.chip then
    s.sendRouted (.kppRsp { dest := h.key.chip, src := s.chip, cmd := BitVec.ofNat 8 (field l 0 1),
                            frame := rspFrame h s.chip l })
  else match h.key.transport with
    | .can => s.sendCan 0x480 l
    | .mailbox => s.mailboxReply h l

/-! ### Clients (R308, R309) -/

/-- The entry of a client. -/
def State.client (s : State) (k : ClientKey) : Option Client := s.kpp.clients.find? fun c => decide (c.key = k)

/-- Change a client's entry. -/
def State.mapClient (s : State) (k : ClientKey) (f : Client → Client) : State :=
  { s with kpp := { s.kpp with clients := s.kpp.clients.map fun c => if c.key = k then f c else c } }

/-- Free a client's entry. -/
def State.freeClient (s : State) (k : ClientKey) : State :=
  { s with kpp := { s.kpp with clients := s.kpp.clients.filter fun c => decide (c.key ≠ k) } }

/-- The client's grant (R304). -/
def State.grantOf (s : State) (k : ClientKey) : Nat :=
  match k.transport with
  | .can => s.obj 0x1106 k.client.toNat
  | .mailbox => s.obj 0x1106 0x80

/-- The open transfer of a client. -/
def State.transfer (s : State) (k : ClientKey) : Option Transfer := (s.client k).bind (·.transfer)

/-- Open, replace or close the transfer of a client. -/
def State.setTransfer (s : State) (k : ClientKey) (t : Option Transfer) : State :=
  s.mapClient k fun c => { c with transfer := t }

/-! ### Checks (R303, Table KP-5) -/

/-- Objects that the boot ROM serves in a boot by download (R386). -/
def bootObject (i j : Nat) : Bool :=
  (decide (0x1000 ≤ i) && decide (i ≤ 0x1009)) || (decide (i = 0x7F00) && decide (7 ≤ j) && decide (j ≤ 9))

/-- The object exists for this access (check 2), by the abort code if it does not. -/
def State.findObject (s : State) (i j : Nat) : Except Nat ObjRow :=
  let inBoot := decide (s.power.dev = .boot)
  if inBoot && !decide (i = 0x7F00) && !bootObject i j then .error 0x01
  else match objRow i j with
    | none => .error (if hasObject i then 0x02 else 0x01)
    | some r => if inBoot && !bootObject i j then .error 0x02 else .ok r

/-- An access kind refuses a command (check 4). -/
def Access.refuses (a : Access) (isWrite : Bool) : Option Nat :=
  match a, isWrite with
  | .const, true => some 0x03
  | .ro, true => some 0x03
  | .wo, false => some 0x04
  | _, _ => none

/-- Checks 2 to 5. -/
def State.checked (s : State) (k : ClientKey) (i j : Nat) (isWrite : Bool) : Except Nat ObjRow :=
  match s.findObject i j with
  | .error c => .error c
  | .ok r =>
    if !s.granted (s.grantOf k) i j isWrite then .error 0x0A
    else match r.acc.refuses isWrite with
      | some c => .error c
      | none => if isWrite && s.objLocked i j r.acc then .error 0x07 else .ok r

/-! ### Commands (Table KP-3, R305) -/

/-- Index of the object of a request. -/
def Held.index (h : Held) : Nat := h.req.index.toNat
/-- Subindex of the object of a request. -/
def Held.sub (h : Held) : Nat := h.req.sub.toNat

/-- Checks 10 and 12 of Table KP-5 for an access, then the access (R303). -/
def State.reachObject (s : State) (h : Held) (f : State → State × Answer) : State × Answer :=
  if !s.objPowered h.index h.sub then (s, .error 0x09)
  else
    let r := s.keeperReaches h.index h.sub
    if r.2 then f r.1 else (r.1, .error 0x0F)

/-- READ. -/
def State.doRead (s : State) (h : Held) : State × Answer :=
  match s.checked h.key h.index h.sub false with
  | .error c => (s, .error c)
  | .ok _ =>
    let l := s.objBytes h.index h.sub
    if 56 < l.length || decide (reqBytes h.req ≠ 0) then (s, .error 0x05)
    else if reqSeg h.req ≠ 0 then (s, .error 0x0C)
    else s.reachObject h fun s => (s, .ok (0, l))

/-- Checks 8 to 11 of a whole value, and its write; check 12 comes where none of them refuses. -/
def State.putValue (s : State) (h : Held) (l : List Byte) : State × Answer :=
  if !s.objPowered h.index h.sub then (s, .error 0x09)
  else
    let p := s.objPut h.index h.sub l
    let r := s.keeperReaches h.index h.sub
    if p.2 ≠ 0 then (p.1, .error p.2) else if r.2 then (p.1, .ok (0, [])) else (r.1, .error 0x0F)

/-- WRITE. -/
def State.doWrite (s : State) (h : Held) : State × Answer :=
  match s.checked h.key h.index h.sub true with
  | .error c => (s, .error c)
  | .ok r =>
    if !r.lengthOk (reqBytes h.req) then (s, .error 0x05)
    else if reqSeg h.req ≠ 0 then (s, .error 0x0C)
    else s.putValue h (reqPayload h.req)

/-- The client's open transfer of this kind on the request's object. -/
def State.openTransfer (s : State) (h : Held) (isWrite : Bool) : Option Transfer :=
  (s.transfer h.key).filter fun t => t.isWrite = isWrite && decide (t.index = h.req.index) && decide (t.sub = h.req.sub)

/-- The next segment of a read, after the first. -/
def State.nextSegment (s : State) (h : Held) (t : Transfer) : State × Answer :=
  let l := t.bytes.take 56
  let rest := t.bytes.drop 56
  if rest.isEmpty then (s.setTransfer h.key none, .ok (3, l))
  else (s.setTransfer h.key (some { t with bytes := rest }), .ok (2, l))

/-- The first segment of a read: a copy of the value is taken. -/
def State.firstSegment (s : State) (h : Held) : State × Answer :=
  let l := s.objBytes h.index h.sub
  let head := natLe l.length 4 ++ l.take 52
  if l.length ≤ 52 then (s, .ok (3, head))
  else
    let t : Transfer := { isWrite := false, index := h.req.index, sub := h.req.sub, total := l.length, bytes := l.drop 52 }
    (s.setTransfer h.key (some t), .ok (1, head))

/-- READ_SEG. -/
def State.doReadSeg (s : State) (h : Held) : State × Answer :=
  match s.checked h.key h.index h.sub false with
  | .error c => (s, .error c)
  | .ok _ =>
    if reqBytes h.req ≠ 0 then (s, .error 0x05)
    else match reqSeg h.req with
      | 2 =>
        (match s.openTransfer h false with
         | some t => s.nextSegment h t
         | none => (s, .error 0x0C))
      | 3 => (s, .error 0x0C)
      | _ =>
        if (s.transfer h.key).isSome then (s, .error 0x0C)
        else s.reachObject h fun s => s.firstSegment h

/-- The first segment of a write: the total length, and the first bytes. -/
def State.openWrite (s : State) (h : Held) (r : ObjRow) : State × Answer :=
  let p := reqPayload h.req
  let total := field p 0 4
  if 4 ≤ p.length && !r.lengthOk total then (s, .error 0x05)
  else if p.length < 4 || (s.transfer h.key).isSome || total ≤ 56 || 65536 < total then (s, .error 0x0C)
  else
    let t : Transfer := { isWrite := true, index := h.req.index, sub := h.req.sub, total, bytes := p.drop 4 }
    (s.setTransfer h.key (some t), .ok (0, []))

/-- A later segment of a write; the one that completes the total carries code 0b11, and takes effect. -/
def State.goOnWrite (s : State) (h : Held) (t : Transfer) : State × Answer :=
  let l := t.bytes ++ reqPayload h.req
  let whole := decide (l.length = t.total)
  if t.total < l.length || (decide (reqSeg h.req = 3) != whole) then (s, .error 0x0C)
  else if whole then (s.setTransfer h.key none).putValue h l
  else (s.setTransfer h.key (some { t with bytes := l }), .ok (0, []))

/-- WRITE_SEG. -/
def State.doWriteSeg (s : State) (h : Held) : State × Answer :=
  match s.checked h.key h.index h.sub true with
  | .error c => (s, .error c)
  | .ok r =>
    match reqSeg h.req with
    | 1 => s.openWrite h r
    | 0 => (s, .error 0x0C)
    | _ =>
      match s.openTransfer h true with
      | some t => s.goOnWrite h t
      | none => (s, .error 0x0C)

/-- A segment that is refused closes the client's transfer (R305). -/
def State.closing (h : Held) (p : State × Answer) : State × Answer :=
  match p.2 with
  | .ok _ => p
  | .error _ => (p.1.setTransfer h.key none, p.2)

/-- Execute a request for this SX4: check 1, then its command (Table KP-5). -/
def State.runRequest (s : State) (h : Held) : State × Answer :=
  let n := reqBytes h.req
  let cmd := h.cmd.toNat
  if cmd = 0 || 6 < cmd then (s, .error 0x06)
  else if 56 < n then (s, .error 0x05)
  else match cmd with
    | 1 => s.doRead h
    | 2 => s.doWrite h
    | 3 => State.closing h (s.doReadSeg h)
    | 4 => State.closing h (s.doWriteSeg h)
    | 5 => if n ≠ 0 then (s, .error 0x05) else (s.setTransfer h.key none, .ok (0, []))
    | _ => if n ≠ 0 then (s, .error 0x05) else (s, .ok (0, []))

/-- Abort code of an answer, 0 for OK. -/
def abortOf (a : Answer) : Nat :=
  match a with
  | .ok _ => 0
  | .error c => c

/-- Execute a request: counted, and traced with its abort code (Table TF-3). A request for another chip reaches
here only where no gateway forwards it (R310). -/
def State.executeRequest (s : State) (h : Held) : State × Answer :=
  let s := s.bump 0x7071 4
  let mine := h.key.chip ≠ s.chip || h.req.tgt.toNat ≥ 128 || decide (h.req.tgt.toNat = s.chip.toNat)
  let p := if mine then s.runRequest h else (s, .error 0x09)
  (p.1.emit 16 false deviceWide 0x50 (h.index + h.sub * 2 ^ 16 + abortOf p.2 * 2 ^ 24), p.2)

/-! ### Answering -/

/-- A write that acts once its response is sent: of this object, with this value. -/
def Held.wrote (h : Held) (i j v : Nat) : Bool :=
  decide (h.cmd = 2) && decide (h.index = i) && decide (h.sub = j) && decide (leNat (reqPayload h.req) = v)

/-- A new rate takes effect (R298). -/
def State.applyRates (s : State) : State :=
  { s with kpp := { s.kpp with nominalRate := s.obj 0x1101 1, dataRate := s.obj 0x1101 2 } }

/-- Answer a request: the response is cached and sent, `RELEASE` frees the entry; then what waits for the response
acts (R298, R308, R309, R379). -/
def State.settleRequest (s : State) (h : Held) (a : Answer) : State :=
  let l := s.frameOf h a
  let ok := decide (abortOf a = 0)
  let s := if h.cmd = 6 && ok then s.freeClient h.key
    else s.mapClient h.key fun c =>
      let all := c.cache ++ [{ txn := h.req.txn, bytes := l }]
      { c with running := none, cache := all.drop (all.length - 16) }
  let s := s.deliverReply h l
  if ok && h.wrote 0x1101 4 1 then s.applyRates
  else if ok && h.wrote 0x2202 5 1 then s.askWarm
  else s

/-- Execute a request and answer it; the response of a write that clears the stream table waits (R49). -/
def State.serveRequest (s : State) (h : Held) : State :=
  let was := s.streams.clearing
  let p := s.executeRequest h
  if p.1.streams.clearing && !was then { p.1 with kpp := { p.1.kpp with deferred := some h } }
  else p.1.settleRequest h p.2

/-- Execute the requests that wait, until one's response has to wait (R325). -/
def State.keeperGo (s : State) : Nat → State
  | 0 => s
  | n + 1 =>
    if s.kpp.deferred.isSome then s
    else match s.kpp.waiting with
      | [] => s
      | h :: rest => ({ s with kpp := { s.kpp with waiting := rest } }.serveRequest h).keeperGo n

/-- Refuse a request without caching the response. -/
def State.refuseRequest (s : State) (h : Held) (code : Nat) : State := s.deliverReply h (s.frameOf h (.error code))

/-- Rank of a request among those that arrive in one cycle: mailbox, CAN FD, then by arrival port (R325). -/
def State.arrivalRank (s : State) (h : Held) : Nat :=
  if h.key.chip ≠ s.chip then 2 + h.port else match h.key.transport with
    | .mailbox => 0
    | .can => 1

/-- Requests that wait, in the order of R325, with a further one. -/
def State.joinRequests (s : State) (h : Held) : List Held → List Held
  | [] => [h]
  | w :: l =>
    if decide (w.arrived = h.arrived) && decide (s.arrivalRank h < s.arrivalRank w) then h :: w :: l
    else w :: s.joinRequests h l

/-- Take a request for execution: its client's running request is now this. -/
def State.admitRequest (s : State) (h : Held) : State :=
  let s := s.mapClient h.key fun c => { c with running := some h.req.txn }
  let s := { s with kpp := { s.kpp with waiting := s.joinRequests h s.kpp.waiting } }
  s.keeperGo s.kpp.waiting.length

/-- 0x0C01: the transport, the entry chip and `CLIENT` (R319). -/
def State.clientsFull (s : State) (h : Held) : State :=
  s.raise 0x0C01 deviceWide (if h.key.transport = .mailbox then 1 else 0) 0
    (h.key.chip.toNat * 256 + h.key.client.toNat)

/-- A request arrives at the Keeper that executes it: replayed, discarded, refused or admitted (R309). -/
def State.takeRequestOf (s : State) (h : Held) : State :=
  match s.client h.key with
  | some c =>
    match c.cache.find? fun x => decide (x.txn = h.req.txn) with
    | some x => (s.bump 0x7071 3).deliverReply h x.bytes
    | none =>
      match c.running with
      | some t => if t = h.req.txn then s else s.refuseRequest h 0x0B
      | none => s.admitRequest h
  | none =>
    if Config.clients ≤ s.kpp.clients.length then (s.clientsFull h).refuseRequest h 0x0B
    else
      let c : Client := { key := h.key }
      { s with kpp := { s.kpp with clients := s.kpp.clients ++ [c] } }.admitRequest h

/-! ### Forwarding (R310) -/

/-- A request for another chip leaves in a KPP_FWD packet, if there is room among 16 and a route. -/
def State.forwardRequest (s : State) (h : Held) : State :=
  let dest := h.req.tgt.setWidth 7
  if 16 ≤ s.kpp.forwards.length then s.refuseRequest h 0x0B
  else
    let t := s.sendRouted (.kppFwd { dest, src := s.chip, cmd := h.cmd, frame := h.req })
    if (s.routePort dest).isNone then t.refuseRequest h 0x0D
    else { t with kpp := { t.kpp with forwards := t.kpp.forwards ++ [h] } }

/-- A frame is discarded and counted: too short, or its client node is 0 or, on CAN FD, above 127 (R300). -/
def malformed (h : Held) : Bool :=
  decide (h.req.length < 8 + reqBytes h.req) || decide (h.req.client = 0) ||
    (decide (h.key.transport = .can) && decide (127 < h.req.client.toNat))

/-- A request enters the system at this SX4 (R300, R310). -/
def State.enterRequest (s : State) (h : Held) : State :=
  if malformed h then s.bump 0x7071 1
  else if h.req.tgt.toNat < 128 && decide (h.req.tgt.toNat ≠ s.chip.toNat) && s.objOn 0x1104 1 then s.forwardRequest h
  else s.takeRequestOf h

/-- A transport is served: by the image, or by the boot ROM of a download over it (R386); CAN FD needs a node
(R299), the mailbox the host port (R360). -/
def State.transportServed (s : State) (t : Transport) : Bool :=
  match t with
  | .can => decide (s.node ≠ 0) && (s.keeperServes ||
      (decide (s.power.dev = .boot) && decide (s.power.straps.bootSel = 2) && !s.testMode))
  | .mailbox => s.hostReaches && (s.keeperServes ||
      (decide (s.power.dev = .boot) && decide (s.power.straps.bootSel = 1) && !s.testMode))

/-- A request by a client of this SX4. -/
def State.holdOf (s : State) (cmd : BitVec 8) (r : KppRequest) : Held :=
  { key := { chip := s.chip, transport := r.transport, client := r.client }, cmd, req := r, arrived := s.cycle }

/-- A request frame is received. In Rest one over CAN FD wakes the SX4 and is kept until after the wake (R374,
R375). -/
def State.receiveRequest (s : State) (cmd : BitVec 8) (r : KppRequest) : State :=
  let h := s.holdOf cmd r
  let s := if r.transport = .can && decide (s.node ≠ 0) then s.wakeEvent 2 else s
  if s.power.dev = .rest && decide (r.transport = .can) && decide (s.node ≠ 0) then
    { s with kpp := { s.kpp with kept := s.kpp.kept ++ [h] } }
  else if s.transportServed r.transport then s.enterRequest h
  else s

/-- READ. -/
def execRead (r : KppRequest) (s : State) : Host.Outcome State Fault Refusal := done (s.receiveRequest 1 r)

/-- WRITE. -/
def execWrite (r : KppRequest) (s : State) : Host.Outcome State Fault Refusal := done (s.receiveRequest 2 r)

/-- READ_SEG. -/
def execReadSeg (r : KppRequest) (s : State) : Host.Outcome State Fault Refusal := done (s.receiveRequest 3 r)

/-- WRITE_SEG. -/
def execWriteSeg (r : KppRequest) (s : State) : Host.Outcome State Fault Refusal := done (s.receiveRequest 4 r)

/-- SEG_ABORT. -/
def execSegAbort (r : KppRequest) (s : State) : Host.Outcome State Fault Refusal := done (s.receiveRequest 5 r)

/-- RELEASE (R308). -/
def execKppRelease (r : KppRequest) (s : State) : Host.Outcome State Fault Refusal := done (s.receiveRequest 6 r)

/-- CLIENT_IDLE_TIMEOUT: the entry and its cached responses go; one whose request runs is not idle (R308). -/
def execClientIdleTimeout (c : ClientKey) (s : State) : Host.Outcome State Fault Refusal :=
  done (match s.client c with
  | some e => if e.running.isNone then s.freeClient c else s
  | none => s)

/-- SEGMENT_TIMEOUT: the client's transfer is closed (R305). -/
def execSegmentTimeout (c : ClientKey) (s : State) : Host.Outcome State Fault Refusal := done (s.setTransfer c none)

/-- A forwarded request of a client with this `TXN`. -/
def State.forwarded (s : State) (c : ClientKey) (txn : BitVec 8) : Option Held :=
  s.kpp.forwards.find? fun h => decide (h.key = c) && decide (h.req.txn = txn)

/-- A forwarded request is no longer waited for. -/
def State.dropForward (s : State) (h : Held) : State :=
  { s with kpp := { s.kpp with forwards := s.kpp.forwards.erase h } }

/-- FORWARD_TIMEOUT: the gateway answers 0x0D (R310). -/
def execForwardTimeout (c : ClientKey) (txn : BitVec 8) (s : State) : Host.Outcome State Fault Refusal :=
  done (match s.forwarded c txn with
  | some h => (s.dropForward h).refuseRequest h 0x0D
  | none => s)

/-- A KPP_FWD packet for this SX4: executed with the gateway's chip as entry chip. -/
def State.forwardArrives (s : State) (l : Port) (m : KppPacket) : State :=
  if s.keeperServes then
    s.takeRequestOf { key := { chip := m.src, transport := m.frame.transport, client := m.frame.client }, cmd := m.cmd,
                      req := m.frame, arrived := s.cycle, port := l }
  else s

/-- KPP_FWD (R310). -/
def execKppFwd (l : Port) (seq : BitVec 12) (m : KppPacket) (s : State) : Host.Outcome State Fault Refusal :=
  done (s.onPacket l seq (.kppFwd m) fun s => s.forwardArrives l m)

/-- A KPP_RSP packet for this gateway: sent back as its own response; a late one is counted (R310). -/
def State.responseArrives (s : State) (m : KppPacket) : State :=
  let f := m.frame
  match s.forwarded { chip := s.chip, transport := f.transport, client := f.client } f.txn with
  | some h => (s.dropForward h).deliverReply h
      ([m.cmd, f.client, f.txn, f.tgt] ++ natLe f.index.toNat 2 ++ [f.sub, f.len] ++ reqPayload f)
  | none => s.bump 0x7071 5

/-- KPP_RSP (R310). -/
def execKppRsp (l : Port) (seq : BitVec 12) (m : KppPacket) (s : State) : Host.Outcome State Fault Refusal :=
  done (s.onPacket l seq (.kppRsp m) fun s => s.responseArrives m)

/-! ### The mailbox (R311) -/

/-- The request that the mailbox's request buffer holds. -/
def State.mailboxFrame (s : State) : BitVec 8 × KppRequest :=
  let b := s.kpp.mailboxRequest
  let u (i : Nat) : BitVec 8 := BitVec.ofNat 8 (field b i 1)
  (u 0, { transport := .mailbox, client := u 1, txn := u 2, tgt := u 3, index := BitVec.ofNat 16 (field b 4 2),
          sub := u 6, len := u 7, payload := slice b 8 56, length := 256 })

/-- The doorbell: the buffer is copied, `RESP_VALID` clears, the copy is submitted. -/
def State.ringMailbox (s : State) : State :=
  let m := s.mailboxFrame
  { s with kpp := { s.kpp with respValid := false } }.receiveRequest m.1 m.2

/-- MAILBOX_DOORBELL (R311). -/
def execMailboxDoorbell (s : State) : Host.Outcome State Fault Refusal :=
  done (if s.hostReaches then s.ringMailbox else s)

/-- `PENDING`: a request of the mailbox is being executed (Table KP-7). -/
def State.mailboxPending (s : State) : Bool :=
  let mine (h : Held) : Bool := h.key.transport = .mailbox && decide (h.key.chip = s.chip) && !h.discard
  s.kpp.waiting.any mine || s.kpp.forwards.any mine || (s.kpp.deferred.map mine).getD false

/-- Mailbox status register (Table KP-7). -/
def State.mailboxStatus (s : State) : Nat :=
  b2n s.mailboxPending * 2 ^ 16 + s.kpp.rtxn.toNat * 2 ^ 8 + b2n s.kpp.respValid

/-! ### What a response waited for, and what waited for the Keeper -/

/-- STREAM_TABLE_CLEARED: the table is clear, and the response of the write that cleared it is sent (R49). -/
def execStreamTableCleared (s : State) : Host.Outcome State Fault Refusal :=
  let t := s.clearTable
  done (match t.kpp.deferred with
  | some h =>
    let u := { t with kpp := { t.kpp with deferred := none } }.settleRequest h (.ok (0, []))
    u.keeperGo u.kpp.waiting.length
  | none => t)

/-- APPLY_RATES: 1 written to object 0x1101:04 (R298). -/
def execApplyRates (s : State) : Host.Outcome State Fault Refusal := done (s.answered (s.applyRates, 0))

/-- WAKE_COMPLETE: the SX4 is awake, and the requests kept in Rest are executed (R374, R376). -/
def execWakeComplete (s : State) : Host.Outcome State Fault Refusal :=
  done (if s.power.rest = .waking then
    let t := s.wakeDone
    t.kpp.kept.foldl State.enterRequest { t with kpp := { t.kpp with kept := [] } }
  else s)

end Sys2Proof.Machine
end

