-- ==== Sys2Proof/Machine/Cyclic.lean ====
section
/-! DEFINITION. CAN FD beside KPP: the heartbeat, classic frames, the cyclic exchange (R298, R301, R312 to R314), and
register writes with BAR0 and the BAR2 pages (R339 to R342). -/

namespace Sys2Proof.Machine

/-! ### Heartbeat and classic frames -/

/-- The Keeper's image runs: after BOOT, in Rest and in FAULT too. -/
def State.imageRuns (s : State) : Bool := s.keeperServes || decide (s.power.dev = .rest)

/-- HEARTBEAT: every period of object 0x1102:00, 0 disabling it. -/
def execHeartbeat (s : State) : Host.Outcome State Fault Refusal :=
  done (if s.imageRuns && s.objOn 0x1102 0 then
    s.sendCan 0x700 (natLe s.power.dev.code 1 ++ natLe s.tracker.state.code 1 ++ natLe s.epoch.toNat 4)
  else s)

/-- Identifiers of Table KP-1 for a node. -/
def kppIdents (n : Nat) : List Nat := [0x400 + n, 0x480 + n, 0x200 + n, 0x280 + n, 0x700 + n]

/-- CLASSIC_FRAME: ignored and counted at the identifiers of Table KP-1 (R298). -/
def execClassicFrame (ident : BitVec 11) (s : State) : Host.Outcome State Fault Refusal :=
  done (if s.imageRuns && decide (s.node ≠ 0) && decide (ident.toNat ∈ kppIdents s.node) then s.bump 0x7071 2 else s)

/-! ### The cyclic exchange (R312 to R314) -/

/-- The exchange is enabled, for an SX4 with a node (object 0x1105:01). -/
def State.exchanges (s : State) : Bool := s.imageRuns && decide (s.node ≠ 0) && s.objOn 0x1105 1

/-- COMMAND_IMAGE: a valid frame is kept, and makes the station present; another length is counted (R312). In Rest it
is a wake event (R375). -/
def execCommandImage (data : List Byte) (s : State) : Host.Outcome State Fault Refusal :=
  let t := if s.node ≠ 0 then s.wakeEvent 2 else s
  done (if !t.exchanges then t
  else if data.length ≠ 64 then t.bump 0x7071 1
  else { t with kpp := { t.kpp with image := data, present := true, absent := 0 } })

/-- CONSUMER_TIMEOUT: the station becomes absent (R312, R319). -/
def execConsumerTimeout (s : State) : Host.Outcome State Fault Refusal :=
  done (if s.exchanges && s.kpp.present then
    ({ s with kpp := { s.kpp with present := false } }.bump 0x7072 1).raise 0x0C02 deviceWide
  else s)

/-- The image exchange takes place in this epoch: the Tracker is LOCKED or FLYWHEEL. -/
def State.imageEpoch (s : State) : Bool :=
  s.exchanges && (decide (s.tracker.state = .locked) || decide (s.tracker.state = .flywheel))

/-- The image to deliver, with its flags, and the count of deliveries without the station (R313). -/
def State.nextImageOut (s : State) : List Byte × Nat × Nat :=
  let k := s.kpp
  if k.present then (slice k.image 0 64, 0, 0)
  else if k.absent + 1 ≤ s.obj 0x1105 5 then (slice k.image 0 64, 5, k.absent + 1)
  else (natLe (s.obj 0x6000 2) 64, 6, k.absent + 1)

/-- Time goes on to a phase of the current epoch. -/
def State.toPhase (s : State) (ph : Nat) : State := s.advance (s.tracker.reachCycle ph).toNat

/-- Add 1 to the counter that object 0x6002:02 selects, if the cyclic partition owns it and its bed is on. -/
def State.countImage (s : State) : State :=
  let sel := s.obj 0x6002 2
  if s.selOk (s.obj 0x6002 3) sel && s.isOn (bedDomain (bits sel 9 8)) then s.addCounter (selCounter sel) 1 else s

/-- Deliver an image (R313). -/
def State.deliverImage (s : State) (x : List Byte × Nat × Nat) : State :=
  let l := patch x.1 2 [BitVec.ofNat 8 x.2.1]
  let w := s.mwrite 11 (partByte (s.obj 0x6002 3)) (s.obj 0x6002 1) l
  let t := (w.1.countImage).setObj 0x6000 1 (leNat l)
  { t with kpp := { t.kpp with absent := x.2.2, deliveredSeq := BitVec.ofNat 16 (field l 0 2),
                               deliveredFlags := BitVec.ofNat 8 x.2.1 } }

/-- COMMAND_IMAGE_DELIVERY, at the input phase (R313); with D1 off nothing can be delivered (DEDUCED, log 41). -/
def execCommandImageDelivery (s : State) : Host.Outcome State Fault Refusal :=
  done (if s.imageEpoch && s.isOn 1 then
    let t := s.toPhase (s.obj 0x1105 3)
    t.deliverImage t.nextImageOut
  else s)

/-- The alert image (Table KP-8). -/
def State.alertImage (s : State) : List Byte :=
  let a := s.alerts
  let flags := s.kpp.deliveredFlags ||| (if s.kpp.present then 0 else 4)
  let alerts := (a.ring.take 3).flatMap fun x => natLe x.seq.toNat 4 ++ natLe x.word.toNat 8
  natLe s.kpp.deliveredSeq.toNat 2 ++ [flags, 0] ++ natLe a.nextSeq.toNat 4 ++ natLe s.oldestAlert.toNat 4
    ++ natLe a.ring.length 2 ++ zeros 2 ++ natLe a.notLatched.toNat 4 ++ slice alerts 0 36 ++ zeros 8

/-- ALERT_IMAGE, at the output phase (R314). -/
def execAlertImage (s : State) : Host.Outcome State Fault Refusal :=
  done (if s.imageEpoch then
    let t := s.toPhase (s.obj 0x1105 4)
    (t.setObj 0x6003 1 (leNat t.alertImage)).sendCan 0x280 t.alertImage
  else s)

/-! ### Register writes -/

/-- Unmasking an MSI-X entry sends the message that waited for it (R342). -/
def State.msixFlush (s : State) (v : Nat) : State :=
  if s.host.msixPending.getLsbD v && !s.msixMasked v && s.host.linkUp && s.host.msixEnable then
    { s with host := { s.host with msixPending := s.host.msixPending &&& ~~~(1#64 <<< v) } }.msix v
  else s

/-- Write one byte of the MSI-X table. -/
def State.msixByte (s : State) (o : Nat) (b : Byte) : State :=
  let i := o / 4
  let v := BitVec.ofNat 32 (patchNat (s.msixWord i).toNat 4 (o % 4) [b])
  { s with host := { s.host with msixTable := tset s.host.msixTable i v (if i % 4 = 3 then 1 else 0) } }

/-- The BAR4 window register with its reserved bits zero; `WPART` stays while the partition lock is set (R340). -/
def State.bar4Byte (s : State) (o : Nat) (b : Byte) : State :=
  let v := patchNat s.host.bar4.toNat 8 o [b]
  let part := if s.locked then s.host.bar4.toNat % 8 else v % 8
  { s with host := { s.host with bar4 := BitVec.ofNat 64 (bits v 60 32 * 2 ^ 32 + bit v 7 * 128 + part) } }

/-- Write one byte of the mailbox's request buffer; bytes 64 to 255 are reserved (R311). -/
def State.mailboxByte (s : State) (o : Nat) (b : Byte) : State :=
  if o < 64 then { s with kpp := { s.kpp with mailboxRequest := patch (slice s.kpp.mailboxRequest 0 64) o [b] } } else s

/-- Write one byte of BAR0 (Table HP-1); what the table does not list ignores writes. -/
def State.bar0Byte (s : State) (o : Nat) (b : Byte) : State :=
  if o < 0x100 then s.mailboxByte o b
  else if 0x2000 ≤ o ∧ o < 0x2008 then s.bar4Byte (o - 0x2000) b
  else if 0x3000 ≤ o ∧ o < 0x3400 then s.msixByte (o - 0x3000) b
  else s

/-- A write of BAR0: its bytes; then the doorbell, if it is touched, and messages that were masked. -/
def State.bar0Write (s : State) (off : Nat) (l : List Byte) : State :=
  let s := (List.zip (List.range l.length) l).foldl (fun s e => s.bar0Byte (off + e.1) e.2) s
  let s := if off < 0x204 ∧ 0x200 < off + l.length then s.ringMailbox else s
  if off < 0x3400 ∧ 0x3000 < off + l.length then (List.range 64).foldl State.msixFlush s else s

/-- A write of the host ring registers in queue q's page (Table HP-6): offset from 0x40. -/
def State.ringPage (s : State) (q o : Nat) (l : List Byte) : State :=
  let r := s.ring q
  let s := if o < 8 then s.ringConfig q .base (BitVec.ofNat 64 (patchNat r.base.toNat 8 o (l.take (8 - o)))) else s
  let s := if o < 16 ∧ 8 < o + l.length then
      s.ringConfig q .size (BitVec.ofNat 64 (patchNat r.size.toNat 8 (o - 8) ((l.drop (8 - o)).take (16 - Max.max o 8))))
    else s
  if o ≤ 0x14 ∧ 0x18 ≤ o + l.length then s.ridxWrite q (BitVec.ofNat 32 (field l (0x14 - o) 4)) else s

/-- A write of a BAR2 page: the queue's register block, as DOORBELL writes it (DEDUCED, log 114), or its host ring
registers (R341); other offsets are reserved. -/
def State.bar2Write (s : State) (off : Nat) (l : List Byte) : State :=
  let q := off / 2 ^ 16
  let o := off % 2 ^ 16
  if 32 ≤ q then s
  else if o < 0x1C then s.queuePageWrite q o (Min.min l.length (0x1C - o)) (BitVec.ofNat 64 (leNat (l.take 8)))
  else if 0x40 ≤ o ∧ o < 0x5C then s.ringPage q (o - 0x40) (l.take (0x5C - o))
  else s

/-! ### Reads of the BARs, and the configuration space -/

/-- A byte of BAR0 (Tables HP-1, HP-2, KP-7): the mailbox, copies of objects 0x1000, 0x1003 and 0x1006, the chip ID, the
BAR4 window, the MSI-X table and its pending bits; what the table does not list reads zero. -/
def State.bar0At (s : State) (o : Nat) : Byte :=
  let word (v : Nat) (base : Nat) : Byte := BitVec.ofNat 8 (v / 2 ^ (8 * (o - base)))
  if o < 0x40 then s.kpp.mailboxRequest.getD o 0
  else if 0x100 ≤ o ∧ o < 0x140 then s.kpp.mailboxResponse.getD (o - 0x100) 0
  else if 0x204 ≤ o ∧ o < 0x208 then word s.mailboxStatus 0x204
  else if 0x1000 ≤ o ∧ o < 0x1004 then word (s.objNow 0x1000 0) 0x1000
  else if 0x1004 ≤ o ∧ o < 0x1008 then word (s.chip.toNat * 2 ^ 16 + s.objNow 0x1003 0) 0x1004
  else if 0x1008 ≤ o ∧ o < 0x1010 then word (s.objNow 0x1006 0) 0x1008
  else if 0x2000 ≤ o ∧ o < 0x2008 then word s.host.bar4.toNat 0x2000
  else if 0x3000 ≤ o ∧ o < 0x3400 then BitVec.ofNat 8 ((s.msixWord ((o - 0x3000) / 4)).toNat / 2 ^ (8 * (o % 4)))
  else if 0x3400 ≤ o ∧ o < 0x3408 then word s.host.msixPending.toNat 0x3400
  else 0

/-- The host ring registers of a queue, from offset 0x40 of its page (Table HP-6). -/
def State.ringImage (s : State) (q : Nat) : List Byte :=
  let r := s.ring q
  natLe r.base.toNat 8 ++ natLe r.size.toNat 8 ++ natLe r.widx.toNat 4 ++ natLe r.ridx.toNat 4 ++ natLe r.rstale.toNat 4

/-- A byte of BAR2 (R341): the queue's register block, the host ring registers of a Publish queue, zero elsewhere. -/
def State.bar2At (s : State) (off : Nat) : Byte :=
  let q := off / 2 ^ 16
  let o := off % 2 ^ 16
  if 32 ≤ q then 0
  else if o < 0x1C then BitVec.ofNat 8 (field (s.blockImage q) o 1)
  else if 0x40 ≤ o ∧ o < 0x5C ∧ s.qCons q = 7 then (s.ringImage q).getD (o - 0x40) 0
  else 0

/-- A field of the configuration space: the class code 0x12_0000 (R337), the MSI-X control word with its enable, function
mask and table size, the AER status (PRESUMED, log 147). -/
def State.configValue (s : State) (f : ConfigField) : Nat :=
  match f with
  | .classCode => 0x120000
  | .msixControl => b2n s.host.msixEnable * 2 ^ 15 + b2n s.host.functionMask * 2 ^ 14 + 63
  | .aerStatus => s.host.aer.toNat

/-- Bytes of a field of the configuration space. -/
def configBytes (f : ConfigField) : Nat :=
  match f with
  | .classCode => 3
  | .msixControl => 2
  | .aerStatus => 4

/-- A write of a field of the configuration space: the MSI-X enables, and 1s that clear AER status bits; messages that the
function mask held go out (R342; PRESUMED, log 147). -/
def State.configWrite (s : State) (f : ConfigField) (l : List Byte) : State :=
  match f with
  | .classCode => s
  | .msixControl =>
    let v := patchNat (s.configValue .msixControl) 2 0 (l.take 2)
    let t := { s with host := { s.host with msixEnable := v.testBit 15, functionMask := v.testBit 14 } }
    (List.range 64).foldl State.msixFlush t
  | .aerStatus => { s with host := { s.host with aer := s.host.aer &&& ~~~(BitVec.ofNat 32 (field l 0 4)) } }

/-- A host read completes with these bytes. -/
def State.hostReply (s : State) (l : List Byte) : State :=
  { s with outputs := { s.outputs with hostReplies := s.outputs.hostReplies ++ [.data l] } }

/-- A host access to a BAR or the configuration space; one that does not reach the SX4 has no effect (R338). -/
def State.hostAccess (s : State) (space : RegSpace) (off : Nat) (l : List Byte) : State :=
  match space with
  | .region3 _ _ => s
  | .bar0 => s.bar0Write off l
  | .bar2 => s.bar2Write off l
  | .bar0Read n => s.hostReply ((List.range n).map fun i => s.bar0At (off + i))
  | .bar2Read n => s.hostReply ((List.range n).map fun i => s.bar2At (off + i))
  | .config f => s.configWrite f l
  | .configRead f => s.hostReply (natLe (s.configValue f) (configBytes f))

/-- REGISTER_WRITE: region 3, BAR0, a BAR2 page or the configuration space, and the host's reads of them, which have no row
of their own (R7, R234, R337, R339, R341, R342). -/
def execRegisterWrite (space : RegSpace) (off : Nat) (bytes : List Byte) (s : State) :
    Host.Outcome State Fault Refusal :=
  done (match space with
  | .region3 m part => (s.spaceWrite m ((part.map fun p => partByte p.val).getD deviceWide) off bytes).1
  | _ => if s.hostReaches then s.hostAccess space off bytes else s)

end Sys2Proof.Machine
end

