-- ==== Sys2Proof/Machine/Element.lean ====
section
/-! DEFINITION. ELEMENT on the Element Engine (R164 to R185, R193). -/

namespace Sys2Proof.Machine

/-- 4-bit format code k of `SFMT`. -/
def Desc.sfmt (d : Desc) (k : Nat) : Nat := bits (d.f 24 3) (4 * k + 3) (4 * k)

/-- Address of input stream k. -/
def Desc.inAddr (d : Desc) (k : Nat) : Nat := d.f (40 + 8 * k) 8
/-- Address of output stream k. -/
def Desc.outAddr (d : Desc) (k : Nat) : Nat := d.f (72 + 8 * k) 8

/-- Input streams a to d. -/
def Desc.ins (d : Desc) : List Stream := (List.range 4).map fun k => streamOf (d.sfmt k) (d.inAddr k)
/-- Output streams o0 and o1. -/
def Desc.outs (d : Desc) : List Stream := (List.range 2).map fun k => { addr := d.outAddr k, code := d.sfmt (4 + k) }

/-- The mask stream is used. -/
def Desc.masked (d : Desc) : Bool := (d.f 21 1).testBit 0

/-- The code of input stream k is one that its place allows: `REP` in row mode (Table EL-1, R172; DEDUCED, log 47). -/
def inCodeOk (d : Desc) (k : Nat) : Bool :=
  let c := d.sfmt k
  let st := streamOf c (d.inAddr k)
  (decide (c ≤ 6) || (decide (9 ≤ c) && decide (c ≤ 14) && decide (d.tag ≠ 0))) &&
    formatPlaceOk st.code st.addr

/-- Check 1 of Table EL-6, in the order of the bytes. -/
def State.elementRanges (s : State) (d : Desc) : Bad :=
  let vl := d.f 16 4
  let e := s.rowLen d.q d vl
  let clear (o : Stream) : Bool := s.outputClear vl e (decide (d.tag ≠ 0)) d.ins o
  let o0 := d.outs.getD 0 { addr := 0, code := 0 }
  let o1 := d.outs.getD 1 { addr := 0, code := 0 }
  firstBad ([
    need (decide (1 ≤ d.f 20 1) && decide (d.f 20 1 ≤ 32)) 20,
    need (inCodeOk d 0 && inCodeOk d 1) 24, need (inCodeOk d 2 && inCodeOk d 3) 25,
    need (decide (o0.code ≤ 4) && decide (o1.code ≤ 4)) 26,
    need (decide (d.f 32 8 % 8 = 0)) 32] ++
    ((List.range 4).map fun k =>
      need ((decide (d.sfmt k ≠ 0) || decide (d.inAddr k = 0)) && s.viewOk (d.inAddr k)) (40 + 8 * k)) ++ [
    need ((decide (o0.code ≠ 0) || decide (o0.addr = 0)) && s.viewOk o0.addr && clear o0) 72,
    need ((decide (o1.code ≠ 0) || decide (o1.addr = 0)) && s.viewOk o1.addr && clear o1 &&
      !s.overlaps vl e (decide (d.tag ≠ 0)) o0 o1) 80,
    need (!(d.masked && s.inStore (d.f 88 8))) 88])

/-- Check 5 of Table EL-6. -/
def State.elementCacheOk (s : State) (d : Desc) (vl e : Nat) : Bool :=
  ((d.ins ++ d.outs).all fun st =>
    decide (st.code = 0) || cacheExtentOk st.addr (s.spanOf vl e (decide (d.tag ≠ 0)) st)) &&
    (!d.masked || cacheExtentOk (d.f 88 8) ((vl + 7) / 8))

/-- What the stick of an `ELEMENT` may name. -/
def State.elementEnv (s : State) (b : Nat) (d : Desc) : StickEnv :=
  { streams := d.ins.map fun st => laneType st.code, scalars := true,
    outs := d.outs.map fun st => laneType st.code, slots := s.validTables b }

/-- An element lies in a masked row of the batch. -/
def elemMasked (rows : Option Rows) (i : Nat) : Bool :=
  match rows with
  | some rw => rowMasked rows (i / rw.perRow)
  | none => false

/-- What the stick forms of element i; none for an inactive one, whose inputs are not read (R185, DEDUCED, log 48). -/
def State.elementLane (s : State) (b : Nat) (who : BitVec 8) (d : Desc) (rows : Option Rows) (ops : List TypedOp)
    (x : Nat × Bool) : State × Except Stopped (Option StickRun) :=
  if !x.2 then (s, .ok none)
  else match s.eachOf (fun s st => s.readLane b who rows x.1 st) d.ins with
    | (s, .error e) => (s, .error e)
    | (s, .ok ls) =>
      let a : StickArgs := {
        ins := ls.map (·.1), index := BitVec.ofNat 32 x.1,
        scalars := (List.range 4).map fun k => BitVec.ofNat 32 (d.f (96 + 8 * k) 4) }
      let r := a.run (s.tableImage b) ops
      (s, .ok (some { r with sats := if elemMasked rows x.1 then 0 else r.sats + (ls.filter (·.2)).length }))

/-- The zero of an inactive element: where its target would answer with an error nothing is written, since no fault arises
from the element (R185; DEDUCED, log 48). -/
def State.zeroPut (s : State) (b : Nat) (who : BitVec 8) (rows : Option Rows) (st : Stream) (i : Nat) : Option Put :=
  match s.elemPut rows st i (zeros (formatSize st.code)) with
  | .ok (some w) => if (putPieces [w]).all fun p => (s.resolve (putRq b who p)).isOk then some w else none
  | _ => none

/-- The write of one element to output k and the clamps it counts: nothing for an inactive element in KEEP mode, zero
in ZERO mode (R181, R185). -/
def State.elementPut (s : State) (b : Nat) (who : BitVec 8) (d : Desc) (rows : Option Rows) (k : Nat)
    (x : Nat × Option StickRun) : Except Stopped (Option Put × Nat) :=
  let st := d.outs.getD k { addr := 0, code := 0 }
  if st.code = 0 then .ok (none, 0)
  else match x.2 with
    | none => .ok (if (d.f 21 1).testBit 1 then s.zeroPut b who rows st x.1 else none, 0)
    | some r =>
      let v := narrow st.code (r.outs.getD k 0)
      (s.elemPut rows st x.1 v.1).map fun w => (w, if v.2 && !elemMasked rows x.1 then 1 else 0)

/-- One group: every input is read before an output is written (R166). -/
def State.elementGroup (s : State) (b : Nat) (who : BitVec 8) (d : Desc) (rows : Option Rows) (ops : List TypedOp)
    (g : Nat) : State × Except Stopped Unit :=
  let vl := d.f 16 4
  let elems := groupElems vl g
  match (if d.masked then s.readBits b who (d.f 88 8) vl g else (s, .ok (elems.map fun _ => true))) with
  | (s, .error e) => (s, .error e)
  | (s, .ok act) =>
    match s.eachOf (fun s x => s.elementLane b who d rows ops x) (List.zip elems act) with
    | (s, .error e) => (s, .error e)
    | (s, .ok runs) =>
      match [0, 1].flatMapM fun k => (List.zip elems runs).mapM (s.elementPut b who d rows k) with
      | .error e => (s, .error e)
      | .ok ws =>
        match s.putRows d.q b who rows (ws.filterMap (·.1)) with
        | (s, .error e) => (s, .error e)
        | (s, .ok _) =>
          (s.countSats b ((ws.map (·.2)).sum + (runs.map fun r => (r.map (·.sats)).getD 0).sum), .ok ())

/-- Run the groups of a checked `ELEMENT`. -/
def State.elementRun (s : State) (q : Nat) (d : Desc) (rows : Option Rows) (ops : List TypedOp) : State :=
  let vl := d.f 16 4
  match s.overGroups (fun s _ g => s.elementGroup (s.qBed q) (s.qWho q) d rows ops g) () (List.range ((vl + 127) / 128))
  with
  | (s, _, none) => s.finish q 0 0 vl
  | (s, _, some (e, g)) => s.bedStop q d e.1 (128 * g)

/-- Checks 2 to 5 of Table EL-6, then the groups. -/
def State.elementWork (s : State) (q : Nat) (d : Desc) : State :=
  let b := s.qBed q
  let vl := d.f 16 4
  match s.rowsAndLength q d vl with
  | .error c => s.bedRefuse q d c
  | .ok rows =>
    match s.readStick b (s.qWho q) (d.f 32 8) (d.f 20 1) with
    | (s, .error e) => s.bedStop q d e.1 0
    | (s, .ok ops) =>
      if !s.ownsTables (s.qPart q) b ops then s.refuse q d 0x0402 32
      else match (s.elementEnv b d).check {} 0 ops with
      | .error i => s.bedRefuse q d 0x0601 i
      | .ok ops =>
        if s.elementCacheOk d vl (s.rowLen q d vl) then s.elementRun q d rows ops
        else s.bedRefuse q d 0x0603

/-- ELEMENT. -/
def execElement (q : QueueId) (s : State) : Host.Outcome State Fault Refusal :=
  done (s.serve q (fun d => d.opc = 0x20) (fun t d => t.elementRanges d) (fun t d => t.elementWork q d))

end Sys2Proof.Machine
end

