-- ==== Sys2Proof/Machine/Imposer.lean ====
section
/-! DEFINITION. MATMUL on the Imposer: issue checks, tile walk, exact accumulation, combines, chains, the
post-operation (R128 to R163, R183). -/

namespace Sys2Proof.Machine

/-! ### Fields (Table QD-8) -/

/-- `M`. -/
def Desc.m (d : Desc) : Nat := d.f 16 4
/-- `K`. -/
def Desc.k (d : Desc) : Nat := d.f 20 4
/-- `N`. -/
def Desc.n (d : Desc) : Nat := d.f 24 4
/-- Activations are A8 in dual-row mode. -/
def Desc.a8 (d : Desc) : Bool := (d.f 28 1).testBit 0
/-- Weights are W16, run in two passes (R146). -/
def Desc.w16 (d : Desc) : Bool := (d.f 28 1).testBit 1
/-- Ping-pong mode (R143). -/
def Desc.pingpong (d : Desc) : Bool := (d.f 30 1).testBit 0
/-- `ACC_ROW`. -/
def Desc.accRow (d : Desc) : Nat := d.f 56 1
/-- `ACC_ROWS`. -/
def Desc.accRows (d : Desc) : Nat := d.f 57 1
/-- `WSRC`. -/
def Desc.wsrc (d : Desc) : Nat := d.f 40 8
/-- `PSUM`. -/
def Desc.psum (d : Desc) : Nat := d.f 96 8
/-- `OFMT`. -/
def Desc.ofmt (d : Desc) : Nat := d.f 104 1

/-- Bytes of an activation element (R134). -/
def Desc.actSize (d : Desc) : Nat := if d.a8 then 1 else 2
/-- Passes of each k-tile (R147). -/
def Desc.passes (d : Desc) : Nat := if d.w16 then 2 else 1
/-- Rows of a full m-tile. -/
def Desc.height (d : Desc) : Nat := if d.pingpong then 64 else 128
/-- k-tiles of the matrix. -/
def Desc.kt (d : Desc) : Nat := d.k / 512
/-- First k-tile of the range. -/
def Desc.ktFirst (d : Desc) : Nat := d.f 88 4
/-- k-tiles of the range: all where `KT_COUNT` is 0 (R149). -/
def Desc.ktCount (d : Desc) : Nat := if d.f 92 4 = 0 then d.kt else d.f 92 4
/-- k-tile after the range. -/
def Desc.ktEnd (d : Desc) : Nat := d.ktFirst + d.ktCount
/-- The weights are resident in the banks (R137). -/
def Desc.resident (d : Desc) : Bool := decide (8 ≤ regionOf d.wsrc) && decide (regionOf d.wsrc < 12)

/-- What a MATMUL is to a chain (R156). -/
inductive ChainRole where
  | none
  | opens
  | continues
  deriving DecidableEq, Repr

/-- A plain-mode MATMUL without a split whose range is not all of K belongs to a chain. -/
def Desc.chainRole (d : Desc) : ChainRole :=
  if d.raw || d.combine || decide (d.split ≠ 0) || decide (d.k % 512 ≠ 0) then .none
  else if d.ktFirst ≠ 0 then .continues
  else if d.ktEnd < d.kt then .opens
  else .none

/-- The range ends at the last k-tile, so a chain's sums go on to the post-operation. -/
def Desc.finishes (d : Desc) : Bool := decide (d.chainRole = .none) || decide (d.ktEnd = d.kt)

/-! ### Issue checks (Table AI-5) -/

/-- `BEDS` obeys R148. -/
def splitOk (d : Desc) (bed : Nat) : Bool :=
  let n := d.beds.length
  let comb := bits (d.f 3 1) 7 6
  (decide (d.split = 0 ∧ n = 1) || decide (d.split = 1 ∧ n = 2) || decide (d.split = 2 ∧ n = 4)) &&
    decide (comb ∈ d.beds) && decide (comb = bed)

/-- The partition owns the arrays on each bed (R148). -/
def State.arraysOwned (s : State) (d : Desc) (p : Nat) : Bool :=
  d.beds.all fun b => d.arrays.all fun x => s.owns p 1 (4 * b + x)

/-- `WSRC` is resident at a multiple of 256 KiB below 1 MiB on this SX4, or streamed from region 0 (R137, R138). -/
def State.wsrcOk (s : State) (d : Desc) : Bool :=
  if d.resident then (s.localPlace d.wsrc).isSome && decide (bits d.wsrc 47 0 % 2 ^ 18 = 0) &&
    decide (bits d.wsrc 47 0 < 2 ^ 20)
  else decide (regionOf d.wsrc = 0) && decide (d.wsrc < 2 ^ 61)

/-- The open chain of a bed. -/
def State.chain (s : State) (b : Nat) : Option Chain := tget s.chains b none

/-- The chain that a MATMUL opens. -/
def Desc.newChain (d : Desc) (part : Nat) : Chain :=
  { part := BitVec.ofNat 8 part, m := d.m, k := d.k, n := d.n, fmt := BitVec.ofNat 8 (d.f 28 1),
    arrays := BitVec.ofNat 8 (d.f 29 1), accRow := d.accRow, accRows := d.accRows, next := d.ktEnd }

/-- The first field in which a continuation differs from the open chain (R156). -/
def chainMatch (c : Chain) (d : Desc) (part : Nat) : Bad := firstBad [
  need (decide (c.part = BitVec.ofNat 8 part)) 2, need (decide (c.m = d.m)) 16, need (decide (c.k = d.k)) 20,
  need (decide (c.n = d.n)) 24, need (decide (c.fmt = BitVec.ofNat 8 (d.f 28 1))) 28,
  need (decide (c.arrays = BitVec.ofNat 8 (d.f 29 1))) 29, need (decide (c.accRow = d.accRow)) 56,
  need (decide (c.accRows = d.accRows)) 57, need (decide (c.next = d.ktFirst)) 88]

/-- A MATMUL that is no member meets accumulator rows of a bed's open chain. -/
def chainClash (c : Chain) (d : Desc) : Bool :=
  (d.arrays.any fun x => c.arrays.toNat.testBit x) && decide (d.accRow < c.accRow + c.accRows) &&
    decide (c.accRow < d.accRow + d.accRows)

/-- The chain rules of check 1 (R156). -/
def State.chainBad (s : State) (d : Desc) (bed part : Nat) : Bad :=
  match d.chainRole, s.chain bed with
  | .opens, some _ => some 92
  | .opens, none => none
  | .continues, none => some 88
  | .continues, some c => chainMatch c d part
  | .none, _ => need (d.beds.all fun b => match s.chain b with
      | some c => !chainClash c d
      | none => true) 56

/-- Check 1 but for the header of a partial set: the bytes of Table QD-8 in order, R148, R149, R152, R156. -/
def State.matmulRanges (s : State) (d : Desc) : Bad :=
  let bed := s.qBed d.q
  let part := s.qPart d.q
  firstBad [
    need (splitOk d bed) 3,
    need (decide (d.arrays ≠ []) && s.arraysOwned d part) 29,
    need (!(d.raw && d.combine)) 30,
    need (s.viewOk (d.f 32 8)) 32,
    need (s.wsrcOk d) 40,
    need ((!d.raw || decide (d.f 48 8 = 0)) && s.viewOk (d.f 48 8)) 48,
    need (decide (d.accRow < 128)) 56,
    need (decide (8 ≤ d.accRows) && decide (d.accRows % 8 = 0) && decide (d.accRow + d.accRows ≤ 128)) 57,
    need (decide (1 ≤ d.f 58 2)) 58,
    need (if d.raw then decide (d.f 64 8 = 0) else decide (d.f 64 8 % 8 = 0)) 64,
    need (!d.raw || decide (d.f 72 8 = 0)) 72,
    need (decide (d.f 80 4 % 2 ^ 16 = 0)) 80,
    need (decide (2 ^ 18 ≤ d.f 84 4)) 84,
    need (decide (d.k = 0) || decide (d.k % 512 ≠ 0) ||
      (decide (d.ktEnd ≤ d.kt) && decide (d.beds.length ≤ d.ktCount))) 88,
    need (!d.combine || (s.localPlace d.psum).isSome) 96,
    need (decide (1 ≤ d.ofmt) && decide (d.ofmt ≤ 4)) 104] <|>
  s.chainBad d bed part

/-- K limit (Table AI-2). -/
def kLimit (d : Desc) : Nat := if !d.a8 && d.w16 then 2 ^ 16 else 2 ^ 24

/-- Checks 2 to 6 of Table AI-5. -/
def State.issueCheck (s : State) (d : Desc) : Option Nat :=
  let h := Min.min d.m d.height
  if !(d.beds.all fun b => d.arrays.all fun x => (s.obj 0x1004 0).testBit (4 * b + x)) then some 0x0505
  else if d.m = 0 || d.k = 0 || d.n = 0 || d.m % 8 ≠ 0 || d.k % 512 ≠ 0 || d.n % 512 ≠ 0 then some 0x0501
  else if d.k > kLimit d then some 0x0503
  else if (if d.pingpong then 2 * h else h) > d.accRows then some 0x0502
  else if d.f 80 4 + d.f 84 4 > 2 ^ 22 || d.f 84 4 < 2 * h * 512 * d.actSize then some 0x0502
  else none

/-- What a post-operation stick may name (R183). -/
def State.postEnv (s : State) (bed : Nat) (d : Desc) : StickEnv :=
  { streams := [some (if d.ofmt = 4 then .float else .int), none, none, none], scalars := false,
    outs := [laneType d.ofmt, none], slots := s.validTables bed }

/-! ### Tiles (R141 to R143, Listing AI-1) -/

/-- An output tile: its number in loop order, n-group, first row, rows. -/
structure Tile where
  index : Nat
  group : Nat
  row : Nat
  rows : Nat
  deriving DecidableEq, Repr

/-- m-tiles of an n-group. -/
def Desc.mTiles (d : Desc) : Nat := (d.m + d.height - 1) / d.height
/-- n-groups. -/
def Desc.groups (d : Desc) : Nat := (d.n / 512 + d.arrays.length - 1) / d.arrays.length

/-- The tiles in loop order. -/
def Desc.tiles (d : Desc) : List Tile := (List.range (d.groups * d.mTiles)).map fun i =>
  let m0 := i % d.mTiles * d.height
  { index := i, group := i / d.mTiles, row := m0, rows := Min.min d.height (d.m - m0) }

/-- Arrays used in a tile's n-group, with their column blocks. -/
def Desc.used (d : Desc) (t : Tile) : List (Nat × Nat) :=
  let na := d.arrays.length
  let n := Min.min na (d.n / 512 - t.group * na)
  (List.zip d.arrays (List.range na)).filterMap fun e => if e.2 < n then some (e.1, t.group * na + e.2) else none

/-- First accumulator row of a tile; ping-pong alternates halves (R143; DEDUCED, log 53). -/
def Desc.tileRow (d : Desc) (t : Tile) : Nat :=
  if d.pingpong && t.index % 2 = 1 then
    (if 64 + t.rows ≤ d.accRows then d.accRow + 64 else d.accRow + t.rows)
  else d.accRow

/-- The k-tile range of the bed at position i of s beds: first k-tile and count (R149). -/
def Desc.bedRange (d : Desc) (i : Nat) : Nat × Nat :=
  let s := d.beds.length
  let lo := i * d.ktCount / s
  (d.ktFirst + lo, (i + 1) * d.ktCount / s - lo)

/-- Key of row r of array x's accumulators on bed b (R139). -/
def accKey (b x r : Nat) : Nat := memKey (12 + b) (x * 384 * 2 ^ 10 + r * 3072)
/-- Key of an offset of array x's weight bank on bed b. -/
def bankKey (b x off : Nat) : Nat := memKey (8 + b) (x * 2 ^ 20 + off)

/-- The signed elements of a byte list, z bytes each. -/
def signedList (z : Nat) : Nat → List Byte → List Int
  | 0, _ => []
  | n + 1, l => signedOf (8 * z) (leNat (l.take z)) :: signedList z n (l.drop z)

/-- A read of a row of 512 accumulators by its bed's units, as a request (Table EL-2, R139). -/
def accRq (b : Nat) (who : BitVec 8) (x r : Nat) : Rq :=
  { unitRq (4 + b) who false with addr := 2 ^ 60 + accKey b x r, len := 3072 }

/-- A row of 512 accumulators (R139, R223). -/
def State.readAcc (s : State) (b : Nat) (who : BitVec 8) (x r : Nat) : State × Except Stopped (List Int) :=
  let f := s.fetchKey (accRq b who x r) (accKey b x r)
  (f.1, (f.2.mapError fun c => (c, 2 ^ 60 + accKey b x r)).map (signedList 6 512))

/-- A fence or a scrub stands in front of the accumulators of array x (R240, R288). -/
def State.accOpen (s : State) (b : Nat) (who : BitVec 8) (x r : Nat) : State × Except Stopped Unit :=
  let rq := accRq b who x r
  match s.portDenies rq (12 + b) (bits rq.addr 47 0) with
  | some c => (s.denied rq (c, noWindow), .error (c, rq.addr))
  | none => (s, .ok ())

/-- Write a row of 512 accumulators. -/
def State.writeAcc (s : State) (b x r : Nat) (vs : List Int) : State :=
  (s.wrBytes (accKey b x r) (vs.flatMap fun v => natLe (BitVec.ofInt 48 v).toNat 6)).eccClear (accKey b x r) 3072

/-! ### Operands of a k-tile -/

/-- Where the activation of row r from k-tile t lies: 512 elements (R134, R145). -/
def State.actSpot (s : State) (d : Desc) (rows : Option Rows) (r t : Nat) : Spot :=
  let len := 512 * d.actSize
  match rows with
  | some rw =>
    if s.inStore (d.f 32 8) then s.rowSpot rw (d.f 32 8) r (rowOffset (d.f 32 8) + t * len) len
    else .at_ (d.f 32 8 + r * d.k * d.actSize + t * len)
  | none => .at_ (d.f 32 8 + r * d.k * d.actSize + t * len)

/-- Read the 512 activation elements of row r and k-tile t for bed b. -/
def State.readAct (s : State) (b : Nat) (who : BitVec 8) (d : Desc) (rows : Option Rows) (t r : Nat) :
    State × Except Stopped (List Int) :=
  match s.actSpot d rows r t with
  | .masked => (s, .ok (List.replicate 512 0))
  | .past => (s, .error (0x0504, d.f 32 8))
  | .at_ a =>
    let x := s.bedRead b who a (512 * d.actSize)
    (x.1, x.2.map (signedList d.actSize 512))

/-- 512 k-rows of 512 bytes. -/
def rowsOf512 : Nat → List Byte → List (List Byte)
  | 0, _ => []
  | n + 1, l => l.take 512 :: rowsOf512 n (l.drop 512)

/-- Weight of a byte in pass p: W8 and the high byte of W16 signed, the low byte unsigned (R146). -/
def weightOf (w16 : Bool) (p : Nat) (w : Byte) : Int :=
  if w16 then (if p = 0 then 256 * w.toInt else w.toNat) else w.toInt

/-- Read a weight tile in a bank, which fills an array's shadow plane for its next dwell (R130): fences and scrubs stand
in front of it, no window (DEDUCED, log 42). -/
def State.bankTile (s : State) (b : Nat) (who : BitVec 8) (x off : Nat) : State × Except Stopped (List Byte) :=
  let addr := localAddr (8 + b) (x * 2 ^ 20 + off)
  let r : Rq := { unitRq (4 + b) who false with addr, len := 2 ^ 18 }
  match s.portDenies r (8 + b) (x * 2 ^ 20 + off) with
  | some c => (s.denied r (c, noWindow), .error (c, addr))
  | none =>
    let f := s.fetchKey r (bankKey b x off)
    (f.1, f.2.mapError fun c => (c, addr))

/-- The weight tile of column block j for array x, k-tile t, pass p on a bed whose range starts at t0 with nk k-tiles.
A resident tile beyond its bank overflows; a streamed one goes through the bank, used as a ring of four buffers, of
which it is fetch number `fetch` (R137, R138, R161). -/
def State.weightTile (s : State) (b : Nat) (who : BitVec 8) (d : Desc) (t0 nk fetch : Nat) (tile : Tile) (xj : Nat × Nat)
    (t p : Nat) : State × Except Stopped (List Byte) :=
  if d.resident then
    let off := bits d.wsrc 47 0 + ((tile.group * nk + (t - t0)) * d.passes + p) * 2 ^ 18
    if off + 2 ^ 18 > 2 ^ 20 then (s, .error (0x0504, localAddr (8 + b) (xj.1 * 2 ^ 20 + off)))
    else s.bankTile b who xj.1 off
  else
    match s.bedRead b who (d.wsrc + ((xj.2 * d.kt + t) * d.passes + p) * 2 ^ 18) (2 ^ 18) with
    | (s, .error e) => (s, .error e)
    | (s, .ok l) =>
      let o := xj.1 * 2 ^ 20 + fetch % 4 * 2 ^ 18
      let r : Rq := { unitRq (4 + b) who true with addr := localAddr (8 + b) o, len := 2 ^ 18 }
      (match s.portDenies r (8 + b) o with
       | some c => (s.denied r (c, noWindow), .error (c, r.addr))
       | none =>
         let k := bankKey b xj.1 (fetch % 4 * 2 ^ 18)
         ((s.wrBytes k l).eccClear k (2 ^ 18), .ok l))

/-- One row through one weight tile: 512 column sums added to `acc` (R128, R132). -/
def dotRow (w16 : Bool) (p : Nat) (acc : List Int) : List Int → List (List Byte) → List Int
  | [], _ => acc
  | _, [] => acc
  | a :: as, w :: ws =>
    dotRow w16 p (if a = 0 then acc else List.zipWith (fun c x => c + a * weightOf w16 p x) acc w) as ws

/-- An activation row through the weight tiles of the used arrays, into accumulator row ar (R132). -/
def State.dotRows (s : State) (b : Nat) (who : BitVec 8) (d : Desc) (first : Bool) (p ar : Nat) (as : List Int)
    (ws : List (Nat × List (List Byte))) : State × Except Stopped Unit :=
  match s.eachOf (fun s w =>
      match (if first then (s, .ok (List.replicate 512 0)) else s.readAcc b who w.1 ar) with
      | (s, .error e) => (s, .error e)
      | (s, .ok acc) => (s.writeAcc b w.1 ar (dotRow d.w16 p acc as w.2), .ok ())) ws with
  | (s, .error e) => (s, .error e)
  | (s, .ok _) => (s, .ok ())

/-- A dwell: each used array's shadow plane, loaded with its tile of (t, p), becomes active (R130), and every row of the
`MATMUL`'s tile runs through the active planes; the first dwell of the range writes, later ones add (R132). A plane is
loaded anew before each dwell, so none outlasts its dwell. -/
def State.dwell (s : State) (b : Nat) (who : BitVec 8) (d : Desc) (rows : Option Rows) (t0 nk : Nat) (first : Bool)
    (fetch : Nat) (tile : Tile) (t p : Nat) : State × Except Stopped Unit :=
  match s.eachOf (fun s xj =>
      match s.weightTile b who d t0 nk fetch tile xj t p with
      | (s, .error e) => (s, .error e)
      | (s, .ok l) => (s, .ok (xj.1, rowsOf512 512 l))) (d.used tile) with
  | (s, .error e) => (s, .error e)
  | (s, .ok ws) =>
    match s.eachOf (fun s r =>
        match s.readAct b who d rows t (tile.row + r) with
        | (s, .error e) => (s, .error e)
        | (s, .ok as) => s.dotRows b who d first p (d.tileRow tile + r) as ws) (List.range tile.rows) with
    | (s, .error e) => (s, .error e)
    | (s, .ok _) => (s, .ok ())

/-- Accumulate a tile on the bed at position i, which adds to what is there if the descriptor continues a chain. -/
def State.accumulate (s : State) (who : BitVec 8) (d : Desc) (rows : Option Rows) (tile : Tile) (i : Nat) :
    State × Except Stopped Unit :=
  let b := d.beds.getD i 0
  let rg := d.bedRange i
  let n := rg.2 * d.passes
  match s.eachOf (fun s xj => s.accOpen b who xj.1 (d.tileRow tile)) (d.used tile) with
  | (s, .error e) => (s, .error e)
  | (s, .ok _) =>
  match s.eachOf (fun s j =>
      s.dwell b who d rows rg.1 rg.2 (decide (j = 0) && decide (d.chainRole ≠ .continues)) (tile.index * n + j) tile
        (rg.1 + j / d.passes) (j % d.passes)) (List.range n) with
  | (s, .error e) => (s, .error e)
  | (s, .ok _) => (s, .ok ())

/-! ### Combines (R151, R153, R154) -/

/-- Accumulator rows of a tile: array, column block, row in the tile. -/
def Desc.tileRows (d : Desc) (tile : Tile) : List (Nat × Nat × Nat) :=
  (List.range tile.rows).flatMap fun r => (d.used tile).map fun xj => (xj.1, xj.2, r)

/-- Add a row of another bed's tile, read over the matrix (R151). -/
def State.addBedRow (s : State) (bed other : Nat) (who : BitVec 8) (d : Desc) (tile : Tile) (x : Nat × Nat × Nat) :
    State × Except Stopped Unit :=
  let ar := d.tileRow tile + x.2.2
  match s.bedRead bed who (2 ^ 60 + accKey other x.1 ar) 3072 with
  | (s, .error e) => (s, .error e)
  | (s, .ok l) =>
    match s.readAcc bed who x.1 ar with
    | (s, .error e) => (s, .error e)
    | (s, .ok acc) => (s.writeAcc bed x.1 ar (List.zipWith (· + ·) acc (signedList 6 512 l)), .ok ())

/-- Address of element (r, c) of block i of a partial set (R153). -/
def partialAddr (d : Desc) (i r c : Nat) : Nat := d.psum + 64 + i * d.m * d.n * 8 + (r * d.n + c) * 8

/-- Whether a value fits ACC48. -/
def inAcc48 (v : Int) : Bool := decide (-(2 ^ 47) ≤ v) && decide (v < 2 ^ 47)

/-- Add the elements of every block of the set to a row; a sum outside ACC48 stops at that tile (R154). -/
def State.addPartials (s : State) (bed : Nat) (who : BitVec 8) (d : Desc) (count : Nat) (tile : Tile)
    (x : Nat × Nat × Nat) : State × Except Stopped Unit :=
  let ar := d.tileRow tile + x.2.2
  match s.eachOf (fun s i =>
      let a := s.bedRead bed who (partialAddr d i (tile.row + x.2.2) (512 * x.2.1)) 4096
      (a.1, a.2.map (signedList 8 512))) (List.range count) with
  | (s, .error e) => (s, .error e)
  | (s, .ok bs) =>
    match s.readAcc bed who x.1 ar with
    | (s, .error e) => (s, .error e)
    | (s, .ok acc) =>
      let sums := bs.foldl (List.zipWith (· + ·)) acc
      match sums.findIdx? fun v => !inAcc48 v with
      | some c => (s, .error (0x0504, partialAddr d 0 (tile.row + x.2.2) (512 * x.2.1 + c)))
      | none => (s.writeAcc bed x.1 ar sums, .ok ())

/-! ### Results (R140, R152, R175, R183) -/

/-- Convert accumulator v of a column whose scale entry is `sc` (R175, R176). -/
def convert (d : Desc) (sc : Nat) (v : Int) : W32 × Bool :=
  let e : Int := d.si 31 1 + signedOf 6 (bits sc 21 16) - 15
  if d.ofmt = 4 then accToF32 v (bits sc 15 0) e else accToS32 v (bits sc 15 0) e (d.si 105 1)

/-- The post-operation on one accumulator: o0's bytes and the saturated results (R177, R183). -/
def State.postOne (s : State) (bed : Nat) (d : Desc) (ops : List TypedOp) (sc c : Nat) (v : Int) : List Byte × Nat :=
  let a := convert d sc v
  let x : StickArgs := { ins := [a.1, 0, 0, 0], scalars := [], index := BitVec.ofNat 32 c }
  let r := x.run (s.tableImage bed) ops
  let o := narrow d.ofmt (r.outs.getD 0 0)
  (o.1, r.sats + (if a.2 then 1 else 0) + (if o.2 then 1 else 0))

/-- Where 512 output elements of row r from column c lie (R140, R171). -/
def State.outSpot (s : State) (d : Desc) (rows : Option Rows) (r c : Nat) : Spot :=
  let z := formatSize d.ofmt
  let plain := Spot.at_ (d.f 48 8 + r * d.f 58 2 * 64 + c * z)
  match rows with
  | some rw => if s.inStore (d.f 48 8) then s.rowSpot rw (d.f 48 8) r (rowOffset (d.f 48 8) + c * z) (512 * z) else plain
  | none => plain

/-- The post-operation of one accumulator row: what it writes, and the saturated results. -/
def State.postRow (s : State) (bed : Nat) (who : BitVec 8) (d : Desc) (rows : Option Rows) (ops : List TypedOp)
    (scales : List Nat) (tile : Tile) (x : Nat × Nat × Nat) : State × Except Stopped (Option Put × Nat) :=
  match s.readAcc bed who x.1 (d.tileRow tile + x.2.2) with
  | (s, .error e) => (s, .error e)
  | (s, .ok vs) =>
    let os := (List.zip (List.range 512) vs).map fun e =>
      s.postOne bed d ops (scales.getD (512 * (x.2.1 - tile.group * d.arrays.length) + e.1) 0) (512 * x.2.1 + e.1) e.2
    let sats := if rowMasked rows (tile.row + x.2.2) then 0 else (os.map (·.2)).sum
    (s, match s.outSpot d rows (tile.row + x.2.2) (512 * x.2.1) with
      | .masked => .ok (none, sats)
      | .past => .error (0x0504, d.f 48 8)
      | .at_ a => .ok (some (a, os.flatMap (·.1)), sats))

/-- Column scale entries of a tile's columns (R175). -/
def State.readScales (s : State) (bed : Nat) (who : BitVec 8) (d : Desc) (tile : Tile) :
    State × Except Stopped (List Nat) :=
  let n := 512 * (d.used tile).length
  let c0 := 512 * (tile.group * d.arrays.length)
  let r := s.bedRead bed who (d.f 72 8 + 4 * c0) (4 * n)
  (r.1, r.2.map fun l => (List.range n).map fun c => field l (4 * c) 4)

/-- Write a finished tile through the post-operation, whole or not at all (R140, R183). -/
def State.postTile (s : State) (bed : Nat) (who : BitVec 8) (d : Desc) (rows : Option Rows) (ops : List TypedOp)
    (tile : Tile) : State × Except Stopped Unit :=
  match s.readScales bed who d tile with
  | (s, .error e) => (s, .error e)
  | (s, .ok sc) =>
    match s.eachOf (fun s x => s.postRow bed who d rows ops sc tile x) (d.tileRows tile) with
    | (s, .error e) => (s, .error e)
    | (s, .ok ws) =>
      match s.putRows d.q bed who rows (ws.filterMap (·.1)) with
      | (s, .error e) => (s, .error e)
      | (s, .ok _) => (s.countSats bed (ws.map (·.2)).sum, .ok ())

/-- Write a finished tile's accumulators to `PSUM`, on whatever device it lies (R152). -/
def State.rawTile (s : State) (bed : Nat) (who : BitVec 8) (d : Desc) (rows : Option Rows) (tile : Tile) :
    State × Except Stopped Unit :=
  match s.eachOf (fun s x =>
      let a := s.readAcc bed who x.1 (d.tileRow tile + x.2.2)
      (a.1, a.2.map fun vs => (d.psum + ((tile.row + x.2.2) * d.n + 512 * x.2.1) * 8,
        vs.flatMap fun v => natLe (BitVec.ofInt 64 v).toNat 8))) (d.tileRows tile) with
  | (s, .error e) => (s, .error e)
  | (s, .ok ws) => s.putRows d.q bed who rows ws

/-! ### The walk -/

/-- A chain holds one output tile: a member's second one overflows (R157). -/
def chainOverflow (d : Desc) (tile : Tile) : Bool := decide (d.chainRole ≠ .none) && decide (1 ≤ tile.index)

/-- A tile whose last row has been written is finished (R142, R395). -/
def State.finishTile (q : Nat) (tile : Tile) (r : State × Except Stopped Unit) : State × Except Stopped Unit :=
  match r with
  | (s, .error e) => (s, .error e)
  | (s, .ok _) => (s.mapRun q fun r => { r with marks := r.marks ++ [.tile tile.index] }, .ok ())

/-- One tile: accumulate on every bed, combine, write. -/
def State.tileWork (s : State) (q : Nat) (d : Desc) (rows : Option Rows) (ops : List TypedOp) (count : Nat)
    (tile : Tile) : State × Except Stopped Unit :=
  let bed := s.qBed q
  let who := s.qWho q
  if chainOverflow d tile then (s, .error (0x0504, s.qEntry q d.index.toNat))
  else match s.eachOf (fun s i => s.accumulate who d rows tile i) (List.range d.beds.length) with
    | (s, .error e) => (s, .error e)
    | (s, .ok _) =>
      match s.eachOf (fun s o => s.eachOf (fun s x => s.addBedRow bed o who d tile x) (d.tileRows tile))
          (d.beds.filter (· ≠ bed)) with
      | (s, .error e) => (s, .error e)
      | (s, .ok _) =>
        match s.eachOf (fun s x => s.addPartials bed who d count tile x)
            (if d.combine then d.tileRows tile else []) with
        | (s, .error e) => (s, .error e)
        | (s, .ok _) =>
          if d.raw then State.finishTile q tile (s.rawTile bed who d rows tile)
          else if d.finishes then State.finishTile q tile (s.postTile bed who d rows ops tile)
          else (s, .ok ())

/-- Walk the tiles; on an error, the code, the address and the faulting tile. -/
def State.walk (s : State) (q : Nat) (d : Desc) (rows : Option Rows) (ops : List TypedOp) (count : Nat) :
    List Tile → State × Option (Stopped × Nat)
  | [] => (s, none)
  | t :: r =>
    match s.tileWork q d rows ops count t with
    | (s, .error e) => (s, some (e, t.index))
    | (s, .ok _) => s.walk q d rows ops count r

/-! ### Staging (R134) -/

/-- Beds whose activation is copied through the staging area. -/
def State.stagedBeds (s : State) (d : Desc) : List Nat := d.beds.filter fun b => !s.ownActivation d b

/-- Whether the Imposer of bed b may write its staging area: 64 KiB at a time. -/
def State.stageCheck (s : State) (who : BitVec 8) (d : Desc) (b : Nat) : State × Except Stopped Unit :=
  match s.eachOf (fun s i =>
      let r : Rq := { putRq b who (localAddr (4 + b) (d.f 80 4 + i * 2 ^ 16), []) with len := 1 }
      match s.resolve r with
      | .error e => (s.denied r e, .error (e.1, r.addr))
      | .ok _ => (s, .ok ())) (List.range ((d.f 84 4 + 2 ^ 16 - 1) / 2 ^ 16)) with
  | (s, .error e) => (s, .error e)
  | (s, .ok _) => (s, .ok ())

/-- What the staging area holds is left open: free bytes (R134, DESIGN CHOICE, log 4). -/
def State.stageOpen (s : State) (d : Desc) (b : Nat) : State :=
  let n := s.freeCtr
  let k := memKey (4 + b) (d.f 80 4)
  (({ s with freeCtr := n + d.f 84 4 }).wrBytes k
    ((List.range (d.f 84 4)).map fun i => (Config.freeWord (n + i)).setWidth 8)).eccClear k (d.f 84 4)

/-- The staging areas of all beds that use one. -/
def State.stageAll (s : State) (d : Desc) : State := (s.stagedBeds d).foldl (fun s b => s.stageOpen d b) s

/-! ### The descriptor -/

/-- Spans that the MATMUL holds against other masters (R139). -/
def heldSpans (d : Desc) : List (Nat × Nat) := d.beds.flatMap fun b => d.arrays.flatMap fun x =>
  [(accKey b x d.accRow, d.accRows * 3072), (bankKey b x 0, 2 ^ 20)]

/-- The descriptor's end: a member that faults closes its chain, one that finishes it too, others leave it open at the
next k-tile (R156). -/
def State.chainEnd (s : State) (bed part : Nat) (d : Desc) (ok : Bool) : State :=
  match d.chainRole with
  | .none => s
  | _ =>
    let c := if ok && !d.finishes then some (d.newChain part) else none
    { s with chains := tset s.chains bed c none }

/-- Walk a checked MATMUL and end it (R142, R161). -/
def State.matmulRun (s : State) (q : Nat) (d : Desc) (rows : Option Rows) (ops : List TypedOp) (count : Nat) : State :=
  let bed := s.qBed q
  let part := s.qPart q
  match s.eachOf (fun s b => s.stageCheck (s.qWho q) d b) (s.stagedBeds d) with
  | (s, .error e) => (s.finishFault q e.1 0).chainEnd bed part d false
  | (s, .ok _) =>
    match (s.stageAll d).walk q d rows ops count d.tiles with
    | (s, none) =>
      ((s.stageAll d).finish q 0 0 (if d.raw || d.finishes then d.tiles.length else 0)).chainEnd bed part d true
    | (s, some (e, i)) =>
      let s := if e.1 = 0x0504 then s.raise 0x0504 (s.qWho q) bed e.2 i else s
      ((s.stageAll d).finishFault q e.1 (if d.raw || d.finishes then i else 0)).chainEnd bed part d false

/-- The batch's rows, the stick, then the run (R170, R183). A MATMUL that fails here never ran, but a member of a chain
ends with a fault. -/
def State.matmulStick (s : State) (q : Nat) (d : Desc) (count : Nat) : State :=
  let bed := s.qBed q
  let part := s.qPart q
  if d.tag ≠ 0 ∧ (s.openBatch part d.tag).isNone then (s.bedRefuse q d 0x0206).chainEnd bed part d false
  else
    let rows := if d.tag = 0 then none else s.rowsOf part d.tag d.m
    if d.raw then s.matmulRun q d rows [] count
    else match s.readStickLast bed (s.qWho q) [] 32 (d.f 64 8) with
      | (s, .error e) => (s.bedStop q d e.1 0).chainEnd bed part d false
      | (s, .ok ops) =>
        if !s.ownsTables part bed ops then (s.refuse q d 0x0402 64).chainEnd bed part d false
        else match (s.postEnv bed d).check {} 0 ops with
        | .error i => (s.bedRefuse q d 0x0601 i).chainEnd bed part d false
        | .ok ops =>
          (s.mapRun q fun r => { r with slots := (stickSlots ops).map (8 * bed + ·) }).matmulRun q d rows ops count

/-- Checks 2 to 6 of Table AI-5, then what follows. -/
def State.matmulIssue (s : State) (q : Nat) (d : Desc) (count : Nat) : State :=
  match s.issueCheck d with
  | some c => (s.bedRefuse q d c).chainEnd (s.qBed q) (s.qPart q) d false
  | none =>
    (s.mapRun q fun r => { r with
      beds := d.beds, uses := s.matmulDomains d (s.qBed q), held := heldSpans d }).matmulStick q d count

/-- The header of a partial set is part of check 1 (R153). -/
def State.matmulWork (s : State) (q : Nat) (d : Desc) : State :=
  if !d.combine then s.matmulIssue q d 0
  else match s.bedRead (s.qBed q) (s.qWho q) d.psum 64 with
    | (s, .error e) => s.bedStop q d e.1 0
    | (s, .ok l) =>
      if field l 0 4 ≤ 127 && allZero (l.drop 4) then s.matmulIssue q d (field l 0 4) else s.refuse q d 0x0402 96

/-- MATMUL in plain mode, and one that sets both mode bits, which is refused. -/
def execMatmul (q : QueueId) (s : State) : Host.Outcome State Fault Refusal :=
  done (s.serve q (fun d => d.opc = 0x10 && d.raw == d.combine) (fun t d => t.matmulRanges d)
    (fun t d => t.matmulWork q d))

/-- MATMUL_RAW. -/
def execMatmulRaw (q : QueueId) (s : State) : Host.Outcome State Fault Refusal :=
  done (s.serve q (fun d => d.opc = 0x10 && d.raw && !d.combine) (fun t d => t.matmulRanges d)
    (fun t d => t.matmulWork q d))

/-- MATMUL_COMBINE. -/
def execMatmulCombine (q : QueueId) (s : State) : Host.Outcome State Fault Refusal :=
  done (s.serve q (fun d => d.opc = 0x10 && d.combine && !d.raw) (fun t d => t.matmulRanges d)
    (fun t d => t.matmulWork q d))

end Sys2Proof.Machine
end

