-- ==== Sys2Proof/Machine/LoadStore.lean ====
section
/-! DEFINITION. Danto's loads, stores and atomics, and their responses (R82, R83, R90, R91, R96 to R98, R238). -/

namespace Sys2Proof.Machine

/-- An address that may be sent: bits [63:61] zero, no reserved region, a multiple of the size; for an atomic a
region with atomics (R91, Table TD-4). -/
def addressOk (addr size : Nat) (atomic : Bool) : Bool :=
  let region := bits addr 52 48
  decide (addr < 2 ^ 61) && decide (region ≠ 2) && decide (region < 24) && decide (addr % size = 0)
    && (!atomic || atomicRegion region)

/-- Accesses a thread may have outstanding (R83). -/
def maxOutstanding : Nat := 16

/-- An address on this SX4 (R90). -/
def State.isLocal (s : State) (addr : Nat) : Bool := addr.testBit 60 || decide (bits addr 59 53 = s.chip.toNat)

/-- Issue an access at a + i: it waits for room, faults on its address, or goes to the matrix (R83, R91). -/
def State.access (s : State) (th : Thread) (op : Nat) (d a b : Reg) (i : Imm) (srcs : List Reg) (size : Nat)
    (kind : AccessKind) (mk : Context → Op) : State :=
  s.issueOn th op srcs fun s n c =>
    let addr := c.reg a + immVal i
    let atomic := match kind with
      | .atomic _ => true
      | _ => false
    if c.outstanding.length ≥ maxOutstanding then s.waitFor n op c .room
    else if !addressOk addr.toNat size atomic then s.threadFault n 0x0302 (dantoWord op d a b i)
    else
      let p := s.contextPart n
      let m : Master := ⟨th.bed.val, by omega⟩
      let r := s.issue m th.ctx.val ⟨p % 8, by omega⟩ addr size (mk c) (.thread th)
      let o : Outstanding := {
        id := r.2, kind, addr, size, pc := c.pc, word := BitVec.ofNat 64 (dantoWord op d a b i), isLocal := s.isLocal addr.toNat }
      let c := if kind.dst = 0 then c else c.supersede kind.dst
      r.1.retire n { c with outstanding := c.outstanding ++ [o] }

/-- A load of `size` bytes. -/
def State.load (s : State) (th : Thread) (op : Nat) (d a : Reg) (i : Imm) (size : Nat) (sgn : Bool) : State :=
  s.access th op d a 0 i [a] size (.load d sgn) fun _ => .read

/-- A posted store of the low `size` bytes of b. -/
def State.store (s : State) (th : Thread) (op : Nat) (a b : Reg) (i : Imm) (size : Nat) : State :=
  s.access th op 0 a b i [a, b] size .store fun c => .write (natLe (c.reg b).toNat size)

/-- An atomic of `size` bytes; the compare value of a compare and swap is d. -/
def State.atomic (s : State) (th : Thread) (op : Nat) (d a b : Reg) (i : Imm) (size : Nat) (o : AtomicOp) : State :=
  s.access th op d a b i (match o with
    | .cas => [a, b, d]
    | _ => [a, b]) size (.atomic d) fun c => .atomic o (c.reg b) (c.reg d)

/-- LD8: zero-extended load. -/
def execLd8 (th : Thread) (d a : Reg) (i : Imm) (s : State) : Host.Outcome State Fault Refusal :=
  done (s.load th 0x20 d a i 1 false)

/-- LD16: zero-extended load. -/
def execLd16 (th : Thread) (d a : Reg) (i : Imm) (s : State) : Host.Outcome State Fault Refusal :=
  done (s.load th 0x21 d a i 2 false)

/-- LD32: zero-extended load. -/
def execLd32 (th : Thread) (d a : Reg) (i : Imm) (s : State) : Host.Outcome State Fault Refusal :=
  done (s.load th 0x22 d a i 4 false)

/-- LD64: zero-extended load. -/
def execLd64 (th : Thread) (d a : Reg) (i : Imm) (s : State) : Host.Outcome State Fault Refusal :=
  done (s.load th 0x23 d a i 8 false)

/-- LDS8: sign-extended load. -/
def execLds8 (th : Thread) (d a : Reg) (i : Imm) (s : State) : Host.Outcome State Fault Refusal :=
  done (s.load th 0x24 d a i 1 true)

/-- LDS16: sign-extended load. -/
def execLds16 (th : Thread) (d a : Reg) (i : Imm) (s : State) : Host.Outcome State Fault Refusal :=
  done (s.load th 0x25 d a i 2 true)

/-- LDS32: sign-extended load. -/
def execLds32 (th : Thread) (d a : Reg) (i : Imm) (s : State) : Host.Outcome State Fault Refusal :=
  done (s.load th 0x26 d a i 4 true)

/-- ST8: posted store of the low bytes of b. -/
def execSt8 (th : Thread) (a b : Reg) (i : Imm) (s : State) : Host.Outcome State Fault Refusal :=
  done (s.store th 0x28 a b i 1)

/-- ST16: posted store of the low bytes of b. -/
def execSt16 (th : Thread) (a b : Reg) (i : Imm) (s : State) : Host.Outcome State Fault Refusal :=
  done (s.store th 0x29 a b i 2)

/-- ST32: posted store of the low bytes of b. -/
def execSt32 (th : Thread) (a b : Reg) (i : Imm) (s : State) : Host.Outcome State Fault Refusal :=
  done (s.store th 0x2a a b i 4)

/-- ST64: posted store of the low bytes of b. -/
def execSt64 (th : Thread) (a b : Reg) (i : Imm) (s : State) : Host.Outcome State Fault Refusal :=
  done (s.store th 0x2b a b i 8)

/-- AADD32 (R96). -/
def execAadd32 (th : Thread) (d a b : Reg) (i : Imm) (s : State) : Host.Outcome State Fault Refusal :=
  done (s.atomic th 0x30 d a b i 4 .add)

/-- AADD64 (R96). -/
def execAadd64 (th : Thread) (d a b : Reg) (i : Imm) (s : State) : Host.Outcome State Fault Refusal :=
  done (s.atomic th 0x31 d a b i 8 .add)

/-- ASWAP32 (R96). -/
def execAswap32 (th : Thread) (d a b : Reg) (i : Imm) (s : State) : Host.Outcome State Fault Refusal :=
  done (s.atomic th 0x32 d a b i 4 .swap)

/-- ASWAP64 (R96). -/
def execAswap64 (th : Thread) (d a b : Reg) (i : Imm) (s : State) : Host.Outcome State Fault Refusal :=
  done (s.atomic th 0x33 d a b i 8 .swap)

/-- ACAS32 (R96). -/
def execAcas32 (th : Thread) (d a b : Reg) (i : Imm) (s : State) : Host.Outcome State Fault Refusal :=
  done (s.atomic th 0x34 d a b i 4 .cas)

/-- ACAS64 (R96). -/
def execAcas64 (th : Thread) (d a b : Reg) (i : Imm) (s : State) : Host.Outcome State Fault Refusal :=
  done (s.atomic th 0x35 d a b i 8 .cas)

/-! ### Responses (R98) -/

/-- The value a response gives its register: zero- or sign-extended (Table TD-7). -/
def resultValue (o : Outstanding) (l : List Byte) : W64 :=
  match o.kind with
  | .load _ true => BitVec.ofInt 64 (signedOf (8 * o.size) (leNat l))
  | _ => BitVec.ofNat 64 (leNat l)

/-- Remove a response from the matrix; a request held back for it goes on to its port (R238). -/
def State.dropResponse (s : State) (id : Nat) : State :=
  { s with matrix := { s.matrix with
      responses := s.matrix.responses.filter fun r => decide (r.id ≠ id) } }.reachPorts

/-- The fault record that a store's error response makes the bed controller write, with the store's address and program
counter (R98, R105): of a 0x0504, which the writing unit raises (R59). Every other code was raised by the unit that
detected it, and its reception raises no second fault (Table OD-10; DEDUCED, log 54). -/
def State.storeRaise (s : State) (n : Nat) (o : Outstanding) (code : Nat) : State :=
  match o.kind with
  | .store => if code ≠ 0x0504 then s else s.raise code (s.thWho n) (n / 64) o.addr.toNat o.pc.toNat o.word.toNat
  | _ => s

/-- The response of the oldest outstanding access of a context arrives. -/
def State.completeAccess (s : State) (n : Nat) (o : Outstanding) (r : Reply) : State :=
  let c := s.context n
  let c := { c with outstanding := c.outstanding.filter fun x => decide (x.id ≠ o.id) }
  match r with
  | .data l =>
    s.setContext n (if o.kind.dst = 0 || decide (c.state = .faulted) then c else c.setReg o.kind.dst (resultValue o l))
  | .error code =>
    let s := (s.setContext n c).storeRaise n o code.toNat
    if c.state = .faulted then s else s.stopThread n code.toNat

/-- The response of request id reaches thread th: absorbed and counted if its bed controller has drained or is off
(R364), discarded if the access is no longer known, else it completes the thread's oldest access (R238). -/
def State.deliver (s : State) (th : Thread) (id : Nat) : State :=
  let n := Thread.num th
  match s.matrix.responses.find? fun r => decide (r.id = id) && decide (r.origin = .thread th) with
  | none => s
  | some r =>
    match s.domain (bedDomain th.bed), (s.context n).outstanding with
    | .off, _ => (s.dropResponse id).bump 0x2204 (bedDomain th.bed + 1)
    | .switchingOn _, _ => (s.dropResponse id).bump 0x2204 (bedDomain th.bed + 1)
    | _, [] => s.dropResponse id
    | _, o :: rest =>
      if o.id = id then (s.dropResponse id).completeAccess n o r.reply
      else if rest.any fun x => decide (x.id = id) then s
      else s.dropResponse id

/-- ACCESS_RESPONSE: n is the identifier of the request answered. -/
def execAccessResponse (th : Thread) (n : Nat) (s : State) : Host.Outcome State Fault Refusal :=
  done (s.deliver th n)

end Sys2Proof.Machine
end

