-- ==== Sys2Proof/Machine/Reduce.lean ====
section
/-! DEFINITION. REDUCE on the Reduction Unit: exact registers, derived statistics, records, summaries and the soft
maximum (R206 to R221). -/

namespace Sys2Proof.Machine

/-- `OPS` bit k. -/
def Desc.stat (d : Desc) (k : Nat) : Bool := (d.f 20 1).testBit k
/-- `IFMT`. -/
def Desc.ifmt (d : Desc) : Nat := d.f 21 1
/-- `SMAX`. -/
def Desc.smax (d : Desc) : Nat := d.f 23 1
/-- `THRESH`. -/
def Desc.thresh (d : Desc) : W32 := BitVec.ofNat 32 (d.f 28 4)
/-- Summaries are written (R214). -/
def Desc.sums (d : Desc) : Bool := (d.f 22 1).testBit 7

/-- `SRC` and `RES` lie outside region 1 of any device, and outside 16 to 19 with a soft maximum (R206). -/
def reducePlaceOk (d : Desc) (a : Nat) : Bool :=
  decide (regionOf a ≠ 1) && (decide (d.smax = 0) || !(decide (16 ≤ regionOf a) && decide (regionOf a < 20)))

/-- Check 1 of Table EL-6 with those of R206 and R214, in the order of the bytes. -/
def State.reduceRanges (s : State) (d : Desc) : Bad := firstBad [
  need (decide (d.tag = 0) || d.stepEnd) 4,
  need (decide (1 ≤ d.ifmt) && decide (d.ifmt ≤ 6) && formatPlaceOk d.ifmt (d.f 32 8) &&
    (decide (d.smax = 0) || decide (d.ifmt = 4))) 21,
  need (!d.sums || decide (d.f 22 1 % 8 ≤ 4)) 22,
  need (decide (d.smax ≤ 2)) 23,
  need (!d.sums || s.owns (s.qPart d.q) 2 (d.f 24 1)) 24,
  need (reducePlaceOk d (d.f 32 8)) 32,
  need (reducePlaceOk d (d.f 48 8)) 48,
  need (decide (1 ≤ d.f 56 4) && decide (d.f 56 4 ≤ 4096)) 56,
  need (decide (d.f 60 4 % 64 = 0)) 60]

/-- Check 5 of Table EL-6. -/
def reduceCacheOk (d : Desc) : Bool :=
  let rows := d.f 56 4
  cacheExtentOk (d.f 32 8) ((rows - 1) * d.f 60 4 + d.f 16 4 * formatSize d.ifmt) &&
    cacheExtentOk (d.f 48 8) (128 * rows) &&
    (decide (d.f 40 8 = 0) || cacheExtentOk (d.f 40 8) ((d.f 16 4 + 7) / 8))

/-! ### Registers (R208 to R210) -/

/-- Exact value of a lane as Table FS-5 takes it: an integer, or a finite float. -/
def laneValue (float : Bool) (v : W32) : Dyadic := if float then f32Value v else { m := v.toInt, e := 0 }

/-- A lane that is not a number takes part in no comparison (DEDUCED, log 50). -/
def laneNaN (float : Bool) (v : W32) : Bool := float && f32IsNaN v

/-- v < w of two lanes. -/
def laneLt (float : Bool) (v w : W32) : Bool := if float then f32Lt v w else decide (v.toInt < w.toInt)

/-- v > `THRESH`, exactly (R210). -/
def overThresh (float : Bool) (v t : W32) : Bool :=
  if float then f32Lt t v
  else if f32IsNaN t then false
  else if f32IsInf t then f32Neg t
  else (f32Value t).lt { m := v.toInt, e := 0 }

/-- Registers of a row (Table FS-5). -/
structure RowRegs where
  /-- In units of 2^−87. -/
  sum : Int := 0
  /-- In units of 2^−174. -/
  sumsq : Int := 0
  n : Nat := 0
  max : Option (W32 × Nat) := none
  min : Option W32 := none
  overs : Nat := 0
  first : Option Nat := none
  tiny : Bool := false
  range : Bool := false
  deriving DecidableEq, Repr

/-- |v| ≥ 2^64, an infinity or a NaN (R209). -/
def outOfWindow (float : Bool) (v : W32) : Bool := float && decide (f32Mag v ≥ 0x5F800000)
/-- 0 < |v| < 2^−64 (R209). -/
def belowWindow (float : Bool) (v : W32) : Bool := float && decide (f32Mag v ≠ 0) && decide (f32Mag v < 0x1F800000)

/-- v in units of 2^−87, exact inside the window; else nothing enters (R209). -/
def fixedOf (float : Bool) (v : W32) : Int :=
  if outOfWindow float v || belowWindow float v then 0
  else
    let x := laneValue float v
    x.m * pow2Num (x.e + 87) / (pow2Den (x.e + 87) : Int)

/-- The element at position j enters the registers (R209, R210). -/
def RowRegs.enter (r : RowRegs) (float : Bool) (t : W32) (j : Nat) (v : W32) : RowRegs :=
  let x := fixedOf float v
  let o := overThresh float v t
  { sum := r.sum + x, sumsq := r.sumsq + x * x, n := r.n + 1
    max := if laneNaN float v then r.max
      else match r.max with
        | none => some (v, j)
        | some m => if laneLt float m.1 v then some (v, j) else some m
    min := if laneNaN float v then r.min
      else match r.min with
        | none => some v
        | some m => if laneLt float v m then some v else some m
    overs := r.overs + (if o then 1 else 0)
    first := r.first <|> (if o then some j else none)
    tiny := r.tiny || belowWindow float v
    range := r.range || outOfWindow float v }

/-- Registers of a row over its active elements: position and lane of each. -/
def rowRegs (float : Bool) (t : W32) (vs : List (Nat × W32)) : RowRegs :=
  vs.foldl (fun r e => r.enter float t e.1 e.2) {}

/-! ### Derived values and the record (R211, R212) -/

/-- MEAN. -/
def RowRegs.mean (r : RowRegs) : W32 :=
  if r.range || r.n = 0 then f32NaN else f32OfRat false r.sum (r.n * 2 ^ 87)

/-- VAR: the numerator is exact, the quotient rounded once. -/
def RowRegs.var (r : RowRegs) : W32 :=
  if r.range || r.n = 0 then f32NaN
  else f32OfRat false (r.n * r.sumsq - r.sum * r.sum) (r.n ^ 2 * 2 ^ 174)

/-- MAX; −∞, or −2^31 of an integer lane, where no element is compared. -/
def RowRegs.maxLane (r : RowRegs) (float : Bool) : W32 :=
  match r.max with
  | some m => m.1
  | none => if float then 0xFF800000 else 0x80000000

/-- MIN. -/
def RowRegs.minLane (r : RowRegs) (float : Bool) : W32 := r.min.getD (if float then f32Inf else 0x7FFFFFFF)

/-- ARG. -/
def RowRegs.arg (r : RowRegs) : Nat := (r.max.map (·.2)).getD 0xFFFFFFFF

/-- `FLAGS`. -/
def RowRegs.flags (r : RowRegs) (soft : Bool) : Nat :=
  b2n r.tiny + 2 * b2n r.range + 4 * b2n (r.n = 0) + 8 * b2n soft

/-- The 128 bytes of the record (Table FS-6). -/
def RowRegs.record (r : RowRegs) (d : Desc) (soft : Bool) : List Byte :=
  let float := formatFloat d.ifmt
  let sel (k : Nat) (n len : Nat) : List Byte := natLe (if d.stat k then n else 0) len
  sel 0 (BitVec.ofInt 192 r.sum).toNat 24 ++ sel 1 (BitVec.ofInt 352 r.sumsq).toNat 44 ++ natLe r.n 4 ++
    sel 0 r.mean.toNat 4 ++ natLe (if d.stat 0 && d.stat 1 then r.var.toNat else 0) 4 ++
    sel 2 (r.maxLane float).toNat 4 ++ sel 3 (r.minLane float).toNat 4 ++ sel 5 r.arg 4 ++ sel 4 r.overs 4 ++
    sel 4 (r.first.getD 0xFFFFFFFF) 4 ++ natLe (r.flags soft) 2 ++ zeros 26

/-! ### Soft maximum (R215 to R219) -/

/-- Exact sum of exponentials in units of 2^−87, and whether one set TINY. -/
def expSum (m : W32) (xs : List W32) : Int × Bool :=
  xs.foldl (fun a x =>
    let e := fnExp (f32Sub x m)
    (a.1 + fixedOf true e, a.2 || belowWindow true e)) (0, false)

/-- Listing FS-1 on the active elements of a row: the outputs, and whether an exponential set TINY. -/
def softThree (xs : List W32) : List W32 × Bool :=
  let m := xs.foldl f32MaxNum 0xFF800000
  let s := expSum m xs
  let r := fnRecip (f32OfRat false s.1 (2 ^ 87))
  (xs.map fun x => f32Mul (fnExp (f32Sub x m)) r, s.2)

/-- A non-negative dyadic number rounded to a 48-bit mantissa, to nearest, ties to even (R217; its exponent is not
bounded, DEDUCED, log 51). -/
def round48 (x : Dyadic) : Dyadic :=
  if x.m = 0 then { m := 0, e := 0 }
  else
    let s := scaleTo 48 none x.m.natAbs 1
    { m := roundEvenNat s.1 s.2.1, e := s.2.2 + x.e }

/-- Pass 1 of Listing FS-2 at one element. -/
def softTwoStep (a : W32 × Dyadic) (x : W32) : W32 × Dyadic :=
  if f32Lt a.1 x then (x, round48 ((a.2.mul (f32Value (fnExp (f32Sub a.1 x)))).add { m := 1, e := 0 }))
  else (a.1, round48 (a.2.add (f32Value (fnExp (f32Sub x a.1)))))

/-- Listing FS-2 on the active elements of a row. -/
def softTwo (xs : List W32) : List W32 :=
  let a := xs.foldl softTwoStep (0xFF800000, { m := 0, e := 0 })
  let r := fnRecip (f32OfDyadic false a.2)
  xs.map fun x => f32Mul (fnExp (f32Sub x a.1)) r

/-- The outputs of a soft-maximum row, and whether TINY was set on the way (R215, R217, R219). -/
def softMax (smax : Nat) (xs : List W32) : List W32 × Bool :=
  if xs.any (outOfWindow true) then (xs.map fun _ => f32NaN, false)
  else if smax = 1 then softThree xs
  else (softTwo xs, false)

/-! ### Rows -/

/-- What passes from row to row: the fault of RANGE has been raised; the registers of each row so far. -/
structure ReduceRun where
  raised : Bool := false
  rows : List RowRegs := []
  deriving DecidableEq, Repr

/-- Read the elements of row r: position, lane, saturated. -/
def State.readRow (s : State) (b : Nat) (who : BitVec 8) (d : Desc) (r : Nat) :
    State × Except Stopped (List (W32 × Bool)) :=
  s.eachOf (fun s i => s.readLane b who none i { addr := d.f 32 8 + r * d.f 60 4, code := d.ifmt })
    (List.range (d.f 16 4))

/-- Raise 0x0702 at the first RANGE row of the descriptor, and count RANGE and TINY rows (R213). -/
def State.rowFlags (s : State) (q : Nat) (d : Desc) (r : Nat) (x : ReduceRun) (g : RowRegs) : State :=
  let b := s.qBed q
  let s := if g.tiny then s.bump 0x7032 (b + 1) else s
  if g.range then
    let s := s.bump 0x7031 (b + 1)
    if x.raised then s else s.bedFault q d 0x0702 r
  else s

/-- One row: read it, replace its active elements by their soft maximum, write its record (R207 to R219). -/
def State.reduceRow (s : State) (q : Nat) (d : Desc) (mask : List Bool) (x : ReduceRun) (r : Nat) :
    State × Except Stopped ReduceRun :=
  let b := s.qBed q
  let who := s.qWho q
  match s.readRow b who d r with
  | (s, .error e) => (s, .error e)
  | (s, .ok ls) =>
    let act := (List.zip (List.range ls.length) (List.zip mask ls)).filter fun e => e.2.1
    let pos := act.map (·.1)
    let xs := act.map (·.2.2.1)
    let soft := if d.smax = 0 then (xs, false) else softMax d.smax xs
    let g0 := rowRegs (formatFloat d.ifmt) d.thresh (List.zip pos soft.1)
    let g := { g0 with tiny := g0.tiny || soft.2 }
    let ws : List Put := if d.smax = 0 then [] else
      (List.zip pos soft.1).map fun e => (d.f 32 8 + r * d.f 60 4 + 4 * e.1, natLe e.2.toNat 4)
    match s.putAll b who ws with
    | (s, .error e) => (s, .error e)
    | (s, .ok _) =>
      match s.putAll b who [(d.f 48 8 + 128 * r, g.record d (decide (d.smax ≠ 0) && decide (g.n ≠ 0)))] with
      | (s, .error e) => (s, .error e)
      | (s, .ok _) =>
        ((s.rowFlags q d r x g).countSats b (act.filter (·.2.2.2)).length,
          .ok { raised := x.raised || g.range, rows := x.rows ++ [g] })

/-! ### Summaries (R214) -/

/-- The largest MAX over the rows, lowest flat index first. -/
def bestMax (float : Bool) (vl : Nat) (rows : List (Nat × RowRegs)) : Option (W32 × Nat) :=
  rows.foldl (fun a e => match e.2.max with
    | none => a
    | some m =>
      match a with
      | none => some (m.1, e.1 * vl + m.2)
      | some c => if laneLt float c.1 m.1 then some (m.1, e.1 * vl + m.2) else a) none

/-- The four summary registers. -/
def summaries (d : Desc) (rows : List RowRegs) : List W64 :=
  let float := formatFloat d.ifmt
  let vl := d.f 16 4
  let nums := List.zip (List.range rows.length) rows
  let first := nums.findSome? fun e => e.2.first.map fun j => e.1 * vl + j
  let sum := roundEvenInt ((rows.map (·.sum)).sum) (2 ^ 71)
  let clamped := Max.max (-(2 ^ 63)) (Min.min sum (2 ^ 63 - 1))
  let best := bestMax float vl nums
  let lane := (best.map (·.1)).getD (if float then 0xFF800000 else 0x80000000)
  [if d.stat 4 then BitVec.ofNat 64 (first.getD (2 ^ 64 - 1)) else 0,
   if d.stat 4 then BitVec.ofNat 64 ((rows.map (·.overs)).sum) else 0,
   if d.stat 0 then BitVec.ofInt 64 clamped else 0,
   BitVec.ofNat 64 ((if d.stat 5 then (best.map (·.2)).getD 0xFFFFFFFF * 2 ^ 32 else 0) +
     if d.stat 2 then lane.toNat else 0)]

/-! ### The descriptor -/

/-- Mask bits of a row, read once at dispatch (R207, R220). -/
def State.readMask (s : State) (b : Nat) (who : BitVec 8) (d : Desc) : State × Except Stopped (List Bool) :=
  let vl := d.f 16 4
  if d.f 40 8 = 0 then (s, .ok (List.replicate vl true))
  else
    let r := s.bedRead b who (d.f 40 8) ((vl + 7) / 8)
    (r.1, r.2.map fun l => (List.range vl).map fun k => (field l (k / 8) 1).testBit (k % 8))

/-- Run a checked `REDUCE`. -/
def State.reduceRun (s : State) (q : Nat) (d : Desc) : State :=
  let vl := d.f 16 4
  let rows := d.f 56 4
  match s.readMask (s.qBed q) (s.qWho q) d with
  | (s, .error e) => s.bedStop q d e.1 0
  | (s, .ok mask) =>
    match s.overGroups (fun s x r => s.reduceRow q d mask x r) {} (List.range rows) with
    | (s, _, some (e, r)) => s.bedStop q d e.1 (r * vl)
    | (s, x, none) =>
      let s := s.finish q 0 0 (rows * vl)
      if d.sums then
        s.mapRun q fun n => { n with summaries := some (d.f 24 1, d.f 22 1 % 8, summaries d x.rows) }
      else s

/-- Checks 2, 3 and 5 of Table EL-6, then the rows. -/
def State.reduceWork (s : State) (q : Nat) (d : Desc) : State :=
  let vl := d.f 16 4
  match s.rowsAndLength q d vl with
  | .error c => s.bedRefuse q d c
  | .ok _ =>
    if d.f 56 4 * vl > 2 ^ 24 then s.bedRefuse q d 0x0602
    else if reduceCacheOk d then s.reduceRun q d
    else s.bedRefuse q d 0x0603

/-- REDUCE: `SMAX` 0, and one beyond 2, which is refused. -/
def execReduce (q : QueueId) (s : State) : Host.Outcome State Fault Refusal :=
  done (s.serve q (fun d => d.opc = 0x21 && d.smax ≠ 1 && d.smax ≠ 2) (fun t d => t.reduceRanges d)
    (fun t d => t.reduceWork q d))

/-- REDUCE_SOFT_MAX_THREE_PASS: `SMAX` 1. -/
def execReduceSoftMaxThreePass (q : QueueId) (s : State) : Host.Outcome State Fault Refusal :=
  done (s.serve q (fun d => d.opc = 0x21 && d.smax = 1) (fun t d => t.reduceRanges d) (fun t d => t.reduceWork q d))

/-- REDUCE_SOFT_MAX_TWO_PASS: `SMAX` 2. -/
def execReduceSoftMaxTwoPass (q : QueueId) (s : State) : Host.Outcome State Fault Refusal :=
  done (s.serve q (fun d => d.opc = 0x21 && d.smax = 2) (fun t d => t.reduceRanges d) (fun t d => t.reduceWork q d))

end Sys2Proof.Machine
end

