-- ==== Sys2Proof/Machine/Scan.lean ====
section
/-! DEFINITION. SCAN on the Element Engine: prefix sum, segmented prefix sum, segmented affine scan (R186 to R189). -/

namespace Sys2Proof.Machine

/-- `KIND`. -/
def Desc.kind (d : Desc) : Nat := d.f 20 1
/-- `SEG`. -/
def Desc.seg (d : Desc) : Nat := d.f 21 1
/-- `CARRY`. -/
def Desc.carry (d : Desc) : Nat := d.f 56 8

/-- Operand a. -/
def Desc.scanA (d : Desc) : Stream := { addr := d.f 24 8, code := d.f 22 1 }
/-- Operand b, of the affine scan only. -/
def Desc.scanB (d : Desc) : Stream := { addr := d.f 32 8, code := if d.kind = 2 then d.f 22 1 else 0 }
/-- The output. -/
def Desc.scanOut (d : Desc) : Stream := { addr := d.f 48 8, code := d.f 22 1 }

/-- Whether `CARRY` may stand there: in region 1 only under `SEG` 2, with view 0b01 (R188). -/
def State.carryOk (s : State) (d : Desc) : Bool :=
  !s.inStore d.carry || (decide (d.seg = 2) && decide (bits d.carry 25 24 = 1) && s.viewOk d.carry)

/-- Check 1 of Table EL-6 (R186 to R188), in the order of the bytes. -/
def State.scanRanges (s : State) (d : Desc) : Bad :=
  let vl := d.f 16 4
  firstBad [
    need (decide (d.kind ≤ 2)) 20,
    need (decide (d.seg = 0) || (decide (d.seg = 1) && decide (1 ≤ d.kind)) ||
      (decide (d.seg = 2) && decide (d.tag ≠ 0))) 21,
    need (decide (d.f 22 1 = 3) || decide (d.f 22 1 = 4)) 22,
    need (s.viewOk (d.f 24 8)) 24,
    need ((decide (d.kind = 2) || decide (d.f 32 8 = 0)) && s.viewOk (d.f 32 8)) 32,
    need ((decide (d.f 40 8 ≠ 0) == decide (d.seg = 1)) && !s.inStore (d.f 40 8)) 40,
    need (s.viewOk (d.f 48 8) &&
      s.outputClear vl (s.rowLen d.q d vl) (decide (d.tag ≠ 0)) [d.scanA, d.scanB] d.scanOut) 48,
    need (s.carryOk d) 56]

/-- Check 5 of Table EL-6. -/
def State.scanCacheOk (s : State) (d : Desc) (vl e rows : Nat) : Bool :=
  ([d.scanA, d.scanB, d.scanOut].all fun st =>
    decide (st.code = 0) || cacheExtentOk st.addr (s.spanOf vl e (decide (d.tag ≠ 0)) st)) &&
    (decide (d.seg ≠ 1) || cacheExtentOk (d.f 40 8) ((vl + 7) / 8)) &&
    (decide (d.carry = 0) || cacheExtentOk d.carry (if d.seg = 2 then 4 * rows else 4))

/-- Rows with a carry: those of the batch under `SEG` 2, else the one scan. -/
def carryRows (d : Desc) (rows : Option Rows) : List Nat :=
  match rows with
  | some rw => if d.seg = 2 then List.range rw.slots.length else [0]
  | none => [0]

/-- Where row r's carry lies; written to the working half (R188). -/
def State.carrySpot (s : State) (d : Desc) (rows : Option Rows) (wr : Bool) (r : Nat) : Spot :=
  match rows with
  | some rw =>
    if d.seg = 2 && s.inStore d.carry then
      s.rowSpot rw (if wr then d.carry - 2 ^ 24 + 2 ^ 25 else d.carry) r (rowOffset d.carry) 4
    else .at_ (d.carry + 4 * r)
  | none => .at_ (d.carry + 4 * r)

/-- Row r of the batch is reset (R61). -/
def State.rowReset (s : State) (rows : Option Rows) (r : Nat) : Bool :=
  match rows with
  | none => false
  | some rw =>
    match rw.slots.getD r none with
    | some k => (s.header rw.part k).rst
    | none => false

/-- The carry-in of row r (R188): zero without `CARRY`, and for a reset row whose carry lies outside region 1. -/
def State.carryIn (s : State) (b : Nat) (who : BitVec 8) (d : Desc) (rows : Option Rows) (r : Nat) :
    State × Except Stopped W32 :=
  if d.carry = 0 then (s, .ok 0)
  else if d.seg = 2 && !s.inStore d.carry && s.rowReset rows r then (s, .ok 0)
  else match s.carrySpot d rows false r with
    | .masked => (s, .ok 0)
    | .past => (s, .error (0x0504, d.carry))
    | .at_ a =>
      let x := s.bedRead b who a 4
      (x.1, x.2.map fun l => BitVec.ofNat 32 (leNat l))

/-- h[i] of Listing EL-2; the clamps of a scan are not among those that R177 counts. -/
def scanStep (kind fmt : Nat) (prev a b : W32) : W32 :=
  if kind = 2 then
    (if fmt = 3 then (satI32 (b.toInt + roundScaled (a.toInt * prev.toInt) (-30))).1 else f32Fma a prev b)
  else if fmt = 3 then (satI32 (prev.toInt + a.toInt)).1
  else f32Add prev a

/-- What passes from element to element: h[i − 1] and the last output of each row. -/
structure ScanRun where
  prev : W32 := 0
  lasts : List W32 := []
  deriving DecidableEq, Repr

/-- The value before element i: the carry-in or zero where a segment starts, else h[i − 1] (R187). -/
def scanPrev (d : Desc) (rows : Option Rows) (carries : List W32) (x : ScanRun) (i : Nat) (flag : Bool) : W32 :=
  if d.seg = 2 then
    match rows with
    | some rw => if i % rw.perRow = 0 then carries.getD (i / rw.perRow) 0 else x.prev
    | none => x.prev
  else if d.seg = 1 && flag then 0
  else if i = 0 then carries.getD 0 0
  else x.prev

/-- The elements of a group in order: their outputs, and what passes on. -/
def scanElems (d : Desc) (rows : Option Rows) (carries : List W32) (x : ScanRun) :
    List (Nat × Bool × W32 × W32) → List W32 × ScanRun
  | [] => ([], x)
  | (i, flag, a, b) :: r =>
    let h := scanStep d.kind (d.f 22 1) (scanPrev d rows carries x i flag) a b
    let per := match rows with
      | some rw => rw.perRow
      | none => d.f 16 4
    let last := if d.seg = 2 then decide ((i + 1) % per = 0) else decide (i + 1 = d.f 16 4)
    let y : ScanRun := {
      prev := h, lasts := if last then x.lasts ++ [h] else x.lasts }
    let t := scanElems d rows carries y r
    (h :: t.1, t.2)

/-- One group of 128. -/
def State.scanGroup (s : State) (b : Nat) (who : BitVec 8) (d : Desc) (rows : Option Rows) (carries : List W32)
    (x : ScanRun) (g : Nat) : State × Except Stopped ScanRun :=
  let vl := d.f 16 4
  let elems := groupElems vl g
  match (if d.seg = 1 then s.readBits b who (d.f 40 8) vl g else (s, .ok (elems.map fun _ => false))) with
  | (s, .error e) => (s, .error e)
  | (s, .ok flags) =>
    match s.eachOf (fun s i => s.eachOf (fun s st => s.readLane b who rows i st) [d.scanA, d.scanB]) elems with
    | (s, .error e) => (s, .error e)
    | (s, .ok ls) =>
      let ops := (List.zip elems (List.zip flags ls)).map fun e =>
        (e.1, e.2.1, (e.2.2.getD 0 (0, false)).1, (e.2.2.getD 1 (0, false)).1)
      let h := scanElems d rows carries x ops
      match (List.zip elems h.1).mapM fun e => s.elemPut rows d.scanOut e.1 (natLe e.2.toNat 4) with
      | .error e => (s, .error e)
      | .ok ws =>
        match s.putRows d.q b who rows (ws.filterMap id) with
        | (s, .error e) => (s, .error e)
        | (s, .ok _) => (s, .ok h.2)

/-- Write the carry-outs after the scan (R188; DEDUCED, log 49). -/
def State.carryOut (s : State) (b : Nat) (who : BitVec 8) (d : Desc) (rows : Option Rows) (lasts : List W32) :
    State × Except Stopped Unit :=
  if d.carry = 0 then (s, .ok ())
  else
    match (List.zip (carryRows d rows) lasts).mapM (fun e =>
      (match s.carrySpot d rows true e.1 with
       | .masked => Except.ok none
       | .past => Except.error ((0x0504, d.carry) : Stopped)
       | .at_ a => Except.ok (some ((a, natLe e.2.toNat 4) : Put)))) with
    | .error e => (s, .error e)
    | .ok ws => s.putRows d.q b who rows (ws.filterMap id)

/-- Run a checked `SCAN`. -/
def State.scanRun (s : State) (q : Nat) (d : Desc) (rows : Option Rows) : State :=
  let b := s.qBed q
  let who := s.qWho q
  let vl := d.f 16 4
  match s.eachOf (fun s r => s.carryIn b who d rows r) (carryRows d rows) with
  | (s, .error e) => s.bedStop q d e.1 0
  | (s, .ok carries) =>
    match s.overGroups (fun s x g => s.scanGroup b who d rows carries x g) {} (List.range ((vl + 127) / 128)) with
    | (s, _, some (e, g)) => s.bedStop q d e.1 (128 * g)
    | (s, x, none) =>
      match s.carryOut b who d rows x.lasts with
      | (s, .error e) => s.bedStop q d e.1 vl
      | (s, .ok _) => s.finish q 0 0 vl

/-- Checks 2, 3 and 5 of Table EL-6, then the groups. -/
def State.scanWork (s : State) (q : Nat) (d : Desc) : State :=
  let vl := d.f 16 4
  match s.rowsAndLength q d vl with
  | .error c => s.bedRefuse q d c
  | .ok rows =>
    if s.scanCacheOk d vl (s.rowLen q d vl) (carryRows d rows).length then s.scanRun q d rows
    else s.bedRefuse q d 0x0603

/-- SCAN_PREFIX_SUM: `KIND` 0, and a `KIND` beyond 2, which is refused. -/
def execScanPrefixSum (q : QueueId) (s : State) : Host.Outcome State Fault Refusal :=
  done (s.serve q (fun d => d.opc = 0x22 && d.kind ≠ 1 && d.kind ≠ 2) (fun t d => t.scanRanges d)
    (fun t d => t.scanWork q d))

/-- SCAN_SEGMENTED_SUM: `KIND` 1. -/
def execScanSegmentedSum (q : QueueId) (s : State) : Host.Outcome State Fault Refusal :=
  done (s.serve q (fun d => d.opc = 0x22 && d.kind = 1) (fun t d => t.scanRanges d) (fun t d => t.scanWork q d))

/-- SCAN_AFFINE: `KIND` 2. -/
def execScanAffine (q : QueueId) (s : State) : Host.Outcome State Fault Refusal :=
  done (s.serve q (fun d => d.opc = 0x22 && d.kind = 2) (fun t d => t.scanRanges d) (fun t d => t.scanWork q d))

end Sys2Proof.Machine
end

