-- ==== Sys2Proof/Machine/ThreadControl.lean ====
section
/-! DEFINITION. Danto's branches, queue, counter, epoch, summary and thread control instructions, fences, the
privileged and illegal opcodes, the end of waits, and alert stores (R86 to R102, R315). -/

namespace Sys2Proof.Machine

/-! ### Branches (R95) -/

/-- A jump: to the target, or 0x0302 with the program counter kept. -/
def State.jump (s : State) (n : Nat) (c : Context) (target : W64) (word : Nat) : State :=
  if pcOk target then s.setContext n { c with pc := target } else s.threadFault n 0x0302 word

/-- A conditional branch. -/
def State.branch (s : State) (th : Thread) (op : Nat) (a b : Reg) (i : Imm) (t : W64 → W64 → Bool) : State :=
  s.issueOn th op [a, b] fun s n c =>
    if t (c.reg a) (c.reg b) then s.jump n c (c.pc + immVal i) (dantoWord op 0 a b i) else s.retire n c

/-- BEQ. -/
def execBeq (th : Thread) (a b : Reg) (i : Imm) (s : State) : Host.Outcome State Fault Refusal :=
  done (s.branch th 0x38 a b i fun x y => decide (x = y))

/-- BNE. -/
def execBne (th : Thread) (a b : Reg) (i : Imm) (s : State) : Host.Outcome State Fault Refusal :=
  done (s.branch th 0x39 a b i fun x y => decide (x ≠ y))

/-- BLT: signed. -/
def execBlt (th : Thread) (a b : Reg) (i : Imm) (s : State) : Host.Outcome State Fault Refusal :=
  done (s.branch th 0x3A a b i fun x y => decide (x.toInt < y.toInt))

/-- BGE: signed. -/
def execBge (th : Thread) (a b : Reg) (i : Imm) (s : State) : Host.Outcome State Fault Refusal :=
  done (s.branch th 0x3B a b i fun x y => decide (y.toInt ≤ x.toInt))

/-- BLTU: unsigned. -/
def execBltu (th : Thread) (a b : Reg) (i : Imm) (s : State) : Host.Outcome State Fault Refusal :=
  done (s.branch th 0x3C a b i fun x y => decide (x.toNat < y.toNat))

/-- BGEU: unsigned. -/
def execBgeu (th : Thread) (a b : Reg) (i : Imm) (s : State) : Host.Outcome State Fault Refusal :=
  done (s.branch th 0x3D a b i fun x y => decide (y.toNat ≤ x.toNat))

/-- A jump that writes the return address if its target is good (R95). -/
def State.link1 (s : State) (n : Nat) (c : Context) (d : Reg) (target : W64) (word : Nat) : State :=
  if pcOk target then s.setContext n { c.setReg d (c.pc + 8) with pc := target } else s.threadFault n 0x0302 word

/-- JAL: d := PC + 8; PC := PC + i. -/
def execJal (th : Thread) (d : Reg) (i : Imm) (s : State) : Host.Outcome State Fault Refusal :=
  done (s.issueOn th 0x3E [] fun s n c => s.link1 n c d (c.pc + immVal i) (dantoWord 0x3E d 0 0 i))

/-- JALR: d := PC + 8; PC := a + i. -/
def execJalr (th : Thread) (d a : Reg) (i : Imm) (s : State) : Host.Outcome State Fault Refusal :=
  done (s.issueOn th 0x3F [a] fun s n c => s.link1 n c d (c.reg a + immVal i) (dantoWord 0x3F d a 0 i))

/-! ### Queues (R99, R110, R111, R127) -/

/-- 0x0403 for a thread's access to another partition's queue: it stops the thread (R99, R127). -/
def State.queueFault (s : State) (n q : Nat) : State :=
  let k := s.queue q
  (s.raise 0x0403 (s.thWho n) 0 (s.qEntry q k.tail.toNat) (q + k.tail.toNat * 2 ^ 32)).stopThread n 0x0403

/-- Credits that threads hold for a queue: none for a doorbell queue (R111). -/
def State.threadCredits (s : State) (q : Nat) : Nat := if s.qDoorbell q then 0 else s.credits q

/-- Copy a descriptor into the ring and push it (R99, R107). -/
def State.pushDesc (s : State) (q : Nat) (l : List Byte) : State :=
  let k := s.queue q
  let two := decide (l.length > 64)
  let s := s.queueRingWrite q (s.entryKey q k.tail.toNat) (l.take 64)
  let s := if two then s.queueRingWrite q (s.entryKey q (k.tail + 1).toNat) (l.drop 64) else s
  let s := s.setQueue q { s.queue q with longs := if two then k.longs ++ [k.tail] else k.longs }
  s.pushed q (if two then 2 else 1)

/-- The eight registers s16 to s23, as bytes (R99). -/
def Context.captured (c : Context) : List Byte :=
  (List.range 8).flatMap fun j => natLe (c.reg (BitVec.ofNat 5 (16 + j))).toNat 8

/-- A push of n entries; `tail` gives the bytes from the registers, the rest comes from the Thread Store. -/
def State.push (s : State) (th : Thread) (op : Nat) (d a b : Reg) (i : Imm) (entries : Nat) (fromRegs : Bool) : State :=
  s.issueOn th op ([a, b] ++ if fromRegs then (List.range 8).map fun j => BitVec.ofNat 5 (16 + j) else []) fun s n c =>
    let q := (c.reg b).toNat % 32
    let src := (c.reg a + immVal i).toNat
    let len := if fromRegs then 64 else 64 * entries
    if s.qPart q ≠ s.contextPart n then s.queueFault n q
    else if src % 64 ≠ 0 || src + len > threadStoreSize then s.threadFault n 0x0302 (dantoWord op d a b i)
    else if s.threadCredits q < entries then (s.overflow q entries).retire n (c.setReg d 1)
    else
      let l := s.rdBytes (memKey (20 + th.bed) src) len ++ if fromRegs then c.captured else []
      let seq := (s.queue q).tail.toNat
      ((s.pushDesc q l).emit th.bed false (s.thWho n) 0x04 (q + seq * 2 ^ 32)).retire n (c.setReg d 0)

/-- QPUT. -/
def execQput (th : Thread) (d a b : Reg) (i : Imm) (s : State) : Host.Outcome State Fault Refusal :=
  done (s.push th 0x40 d a b i 1 false)

/-- QPUTX. -/
def execQputx (th : Thread) (d a b : Reg) (i : Imm) (s : State) : Host.Outcome State Fault Refusal :=
  done (s.push th 0x41 d a b i 2 false)

/-- QPUTS. -/
def execQputs (th : Thread) (d a b : Reg) (i : Imm) (s : State) : Host.Outcome State Fault Refusal :=
  done (s.push th 0x42 d a b i 2 true)

/-- QCRED: d := credits held for queue a[4:0]. -/
def execQcred (th : Thread) (d a : Reg) (s : State) : Host.Outcome State Fault Refusal :=
  done (s.issueOn th 0x43 [a] fun s n c =>
    let q := (c.reg a).toNat % 32
    if s.qPart q ≠ s.contextPart n then s.queueFault n q
    else s.retire n (c.setReg d (BitVec.ofNat 64 (s.threadCredits q))))

/-- QWAIT: wait until the credits for queue a[4:0] are at least i. -/
def execQwait (th : Thread) (a : Reg) (i : Imm) (s : State) : Host.Outcome State Fault Refusal :=
  done (s.issueOn th 0x44 [a] fun s n c =>
    let q := (c.reg a).toNat % 32
    let v := (immVal i).toInt
    if s.qPart q ≠ s.contextPart n then s.queueFault n q
    else if v < 1 || v > (s.qDepth q : Int) then s.threadFault n 0x0301 (dantoWord 0x44 0 a 0 i)
    else if v.toNat ≤ s.threadCredits q then s.retire n c
    else s.waitFor n 0x44 { c with pc := c.pc + 8 } (.credit ⟨q % 32, by omega⟩ v.toNat))

/-! ### Counters (R86 to R88) -/

/-- The counter selector (a + i)[9:0]. -/
def selectorOf (c : Context) (a : Reg) (i : Imm) : Nat := (c.reg a + immVal i).toNat % 1024

/-- CINC: add b[31:0] to the selected counter. -/
def execCinc (th : Thread) (a b : Reg) (i : Imm) (s : State) : Host.Outcome State Fault Refusal :=
  done (s.issueOn th 0x50 [a, b] fun s n c =>
    let sel := selectorOf c a i
    if !s.selOk (s.contextPart n) sel then s.threadFault n 0x0302 (dantoWord 0x50 0 a b i)
    else (s.addCounter (selCounter sel) ((c.reg b).setWidth 32)).retire n c)

/-- CWAIT: wait until a counter of the thread's own bed has reached b[31:0]. -/
def execCwait (th : Thread) (a b : Reg) (i : Imm) (s : State) : Host.Outcome State Fault Refusal :=
  done (s.issueOn th 0x51 [a, b] fun s n c =>
    let sel := selectorOf c a i
    let v : W32 := (c.reg b).setWidth 32
    if !s.selOk (s.contextPart n) sel then s.threadFault n 0x0302 (dantoWord 0x51 0 a b i)
    else if bits sel 9 8 ≠ th.bed.val then s.threadFault n 0x0301 (dantoWord 0x51 0 a b i)
    else if reached (s.counter (selCounter sel)) v then s.retire n c
    else s.waitFor n 0x51 { c with pc := c.pc + 8 } (.counter sel v))

/-- CREAD: d := the selected counter, zero-extended. -/
def execCread (th : Thread) (d a : Reg) (i : Imm) (s : State) : Host.Outcome State Fault Refusal :=
  done (s.issueOn th 0x52 [a] fun s n c =>
    let sel := selectorOf c a i
    if !s.selOk (s.contextPart n) sel then s.threadFault n 0x0302 (dantoWord 0x52 d a 0 i)
    else s.retire n (c.setReg d ((s.counter (selCounter sel)).setWidth 64)))

/-! ### Epoch (Table TD-7) -/

/-- (epoch, phase) has reached a pair, compared epoch first; not before time has started. -/
def State.timeReached (s : State) (e : BitVec 48) (ph : BitVec 20) : Bool :=
  s.tracker.running && (decide (e.toNat < s.epoch.toNat) || (decide (e = s.epoch) && decide (ph.toNat ≤ s.phase)))

/-- EWAIT: wait until (epoch, phase) ≥ (a[47:0], b[19:0]). -/
def execEwait (th : Thread) (a b : Reg) (s : State) : Host.Outcome State Fault Refusal :=
  done (s.issueOn th 0x58 [a, b] fun s n c =>
    let e : BitVec 48 := (c.reg a).setWidth 48
    let ph : BitVec 20 := (c.reg b).setWidth 20
    if s.timeReached e ph then s.retire n c else s.waitFor n 0x58 { c with pc := c.pc + 8 } (.epoch e ph))

/-- EREAD: the epoch, the phase or the cycle count. -/
def execEread (th : Thread) (d : Reg) (i : Imm) (s : State) : Host.Outcome State Fault Refusal :=
  done (s.issueOn th 0x59 [] fun s n c =>
    match i.toNat with
    | 0 => s.retire n (c.setReg d (s.epoch.setWidth 64))
    | 1 => s.retire n (c.setReg d (BitVec.ofNat 64 s.phase))
    | 2 => s.retire n (c.setReg d (BitVec.ofNat 64 s.cycle))
    | _ => s.threadFault n 0x0301 (dantoWord 0x59 d 0 0 i))

/-! ### Summaries (R84, R85) -/

/-- MGET: d := m(i). -/
def execMget (th : Thread) (d : Reg) (i : Imm) (s : State) : Host.Outcome State Fault Refusal :=
  done (s.issueOn th 0x60 [] fun s n c =>
    if i.toNat < 8 then s.retire n (c.setReg d (tget c.mregs i.toNat 0))
    else s.threadFault n 0x0301 (dantoWord 0x60 d 0 0 i))

/-- MCLR: the m-registers whose bit is set in i[7:0] become zero. -/
def execMclr (th : Thread) (i : Imm) (s : State) : Host.Outcome State Fault Refusal :=
  done (s.issueOn th 0x61 [] fun s n c =>
    if i.toNat < 256 then s.retire n { c with mregs := c.mregs.filter fun e => !(i.toNat.testBit e.1) }
    else s.threadFault n 0x0301 (dantoWord 0x61 0 0 0 i))

/-! ### Thread control (R100, R101) -/

/-- The lowest FREE context of a bed that a partition owns (R100). -/
def State.freeContext (s : State) (p b : Nat) : Option Nat :=
  ((List.range 64).map (64 * b + ·)).find? fun n => decide ((s.context n).state = .free) && s.owns p 2 n

/-- SPAWN: start a thread on this bed with s4 = b at a + i. -/
def execSpawn (th : Thread) (d a b : Reg) (i : Imm) (s : State) : Host.Outcome State Fault Refusal :=
  done (s.issueOn th 0x68 [a, b] fun s n c =>
    let pc := c.reg a + immVal i
    let word := dantoWord 0x68 d a b i
    if !pcOk pc then s.threadFault n 0x0302 word
    else match s.freeContext (s.contextPart n) th.bed with
      | none => (s.threadRaise n 0x0304 word).retire n (c.setReg d (-1))
      | some m =>
        let c' : Context := {}
        (s.startThread m pc (c'.setReg 4 (c.reg b))).retire n (c.setReg d (BitVec.ofNat 64 (s.threadId m))))

/-- YIELD: nothing beyond this issue turn. -/
def execYield (th : Thread) (s : State) : Host.Outcome State Fault Refusal :=
  done (s.issueOn th 0x69 [] fun s n c => s.retire n c)

/-- PARK: wait until the counter of the own context differs from its value now (R101). -/
def execPark (th : Thread) (s : State) : Host.Outcome State Fault Refusal :=
  done (s.issueOn th 0x6A [] fun s n c => s.waitFor n 0x6A { c with pc := c.pc + 8 } (.park (s.counter n)))

/-- HALT: the context becomes FREE. -/
def execHalt (th : Thread) (s : State) : Host.Outcome State Fault Refusal :=
  done (s.issueOn th 0x6B [] fun s n _ =>
    (s.setContext n {}).emit th.bed false (s.thWho n) 0x02 (s.threadId n))

/-- TID: [18:16] partition, [14:0] thread ID. -/
def execTid (th : Thread) (d : Reg) (s : State) : Host.Outcome State Fault Refusal :=
  done (s.issueOn th 0x6C [] fun s n c =>
    s.retire n (c.setReg d (BitVec.ofNat 64 (s.contextPart n * 2 ^ 16 + s.threadId n))))

/-! ### Fences (R102) -/

/-- FENCE.L: wait for the earlier accesses to local addresses. -/
def execFenceL (th : Thread) (s : State) : Host.Outcome State Fault Refusal :=
  done (s.issueOn th 0x70 [] fun s n c =>
    if c.outstanding.all fun o => !o.isLocal then s.retire n c
    else s.waitFor n 0x70 { c with pc := c.pc + 8 } .fenceLocal)

/-- FENCE.G: wait for every earlier access. -/
def execFenceG (th : Thread) (s : State) : Host.Outcome State Fault Refusal :=
  done (s.issueOn th 0x71 [] fun s n c =>
    if c.outstanding.isEmpty then s.retire n c else s.waitFor n 0x71 { c with pc := c.pc + 8 } .fenceGlobal)

/-! ### The end of a wait (Table TD-1, R88) -/

/-- The condition that a context in WAIT awaits holds. -/
def State.waitOver (s : State) (n : Nat) (c : Context) : Bool :=
  match c.wait with
  | .none => true
  | .regs rs => (c.awaited rs).isEmpty
  | .room => decide (c.outstanding.length < maxOutstanding)
  | .counter sel v => reached (s.counter (selCounter sel)) v
  | .epoch e ph => s.timeReached e ph
  | .credit q k => decide (k ≤ s.threadCredits q)
  | .park v => decide (s.counter n ≠ v)
  | .fenceLocal => c.outstanding.all fun o => !o.isLocal
  | .fenceGlobal => c.outstanding.isEmpty

/-- WAIT_ENDED: the context becomes READY. -/
def execWaitEnded (th : Thread) (s : State) : Host.Outcome State Fault Refusal :=
  let n := Thread.num th
  let c := s.context n
  done (if s.threadsIssue && decide (c.state = .wait) && s.waitOver n c then
    (s.setContext n { c with state := .ready, wait := .none, waitOp := 0 }).emit th.bed false (s.thWho n) 0x06
      (s.threadId n + c.waitOp.toNat * 2 ^ 16)
  else s)

/-! ### Privileged and illegal opcodes (R92, R94) -/

/-- A word with a privileged opcode (R94, Table TD-7). -/
def privilegedWord (w : Nat) : Bool := decide (0x78 ≤ bits w 63 56) && decide (bits w 63 56 ≤ 0x7F)

/-- PRIVILEGED_OPCODE: 0x0303 from a thread; the Keeper starts a thread in a FREE context of its partition, stops
one, or inspects it. -/
def execPrivilegedOpcode (th : Thread) (op : Privileged) (s : State) : Host.Outcome State Fault Refusal :=
  let n := Thread.num th
  done (match op with
  | .fromThread w =>
    if privilegedWord w.toNat then
      s.issueOn th (bits w.toNat 63 56) [] fun s n _ => s.threadFault n 0x0303 w.toNat
    else s
  | .keeperStart p pc =>
    if decide ((s.context n).state = .free) && s.owns p.val 2 n && pcOk pc && s.isOn (bedDomain th.bed) then
      s.startThread n pc {}
    else s
  | .keeperStop =>
    if (s.context n).state = .free then s
    else (s.setContext n {}).emit th.bed false (s.thWho n) 0x02 (s.threadId n)
  | .keeperInspect => s)

/-- The fields that an opcode of Table TD-7 uses: d, a, b, i; none for an opcode that it does not list. -/
def fieldsUsed (op : Nat) : Option (Bool × Bool × Bool × Bool) :=
  if op ≤ 0x0D then some (true, true, true, false)
  else if 0x10 ≤ op ∧ op ≤ 0x1B then some (true, true, false, true)
  else if op = 0x1C then some (true, false, false, true)
  else if 0x20 ≤ op ∧ op ≤ 0x26 then some (true, true, false, true)
  else if 0x28 ≤ op ∧ op ≤ 0x2B then some (false, true, true, true)
  else if 0x30 ≤ op ∧ op ≤ 0x35 then some (true, true, true, true)
  else if 0x38 ≤ op ∧ op ≤ 0x3D then some (false, true, true, true)
  else if op = 0x3E then some (true, false, false, true)
  else if op = 0x3F then some (true, true, false, true)
  else if 0x40 ≤ op ∧ op ≤ 0x42 then some (true, true, true, true)
  else if op = 0x43 then some (true, true, false, false)
  else if op = 0x44 then some (false, true, false, true)
  else if op = 0x50 ∨ op = 0x51 then some (false, true, true, true)
  else if op = 0x52 then some (true, true, false, true)
  else if op = 0x58 then some (false, true, true, false)
  else if op = 0x59 ∨ op = 0x60 then some (true, false, false, true)
  else if op = 0x61 then some (false, false, false, true)
  else if op = 0x68 then some (true, true, true, true)
  else if 0x69 ≤ op ∧ op ≤ 0x6B then some (false, false, false, false)
  else if op = 0x6C then some (true, false, false, false)
  else if op = 0x70 ∨ op = 0x71 then some (false, false, false, false)
  else none

/-- Fields that make an instruction word illegal: an unlisted opcode that is not privileged either, or a non-zero
unused field (R92). -/
def illegalFields (op d a b i : Nat) : Bool :=
  match fieldsUsed op with
  | none => !(decide (0x78 ≤ op) && decide (op ≤ 0x7F))
  | some u => (!u.1 && d != 0) || (!u.2.1 && a != 0) || (!u.2.2.1 && b != 0) || (!u.2.2.2 && i != 0)

/-- A word that R92 calls illegal. -/
def illegalWord (w : Nat) : Bool :=
  illegalFields (bits w 63 56) (bits w 55 51) (bits w 50 46) (bits w 45 41) (bits w 40 0)

/-- ILLEGAL_INSTRUCTION: a thread issues a word that R92 calls illegal. -/
def execIllegalInstruction (th : Thread) (word : W64) (s : State) : Host.Outcome State Fault Refusal :=
  done (if illegalWord word.toNat then
    s.issueOn th (bits word.toNat 63 56) [] fun s n _ => s.threadFault n 0x0301 word.toNat
  else s)

/-! ### Alerts (R315) -/

/-- ALERT_POST: a store of `size` bytes by a thread to the alert post register; an error response stops the
thread (R98). -/
def execAlertPost (th : Thread) (size : Nat) (word : W64) (s : State) : Host.Outcome State Fault Refusal :=
  let n := Thread.num th
  let addr := localAddr 3 0x00150000
  let w := s.writePiece { master := th.bed, who := s.thWho n, id := th.ctx, addr, len := size,
                          rd := false, wr := true } (natLe word.toNat size)
  done (match w.2 with
  | none => w.1
  | some c =>
    let t := w.1
    if (t.context n).state = .ready || (t.context n).state = .wait then t.stopThread n c else t)

end Sys2Proof.Machine
end

