-- ==== Sys2Proof/Machine/Dispatch.lean ====
section
/-! DEFINITION. The dispatch of the commands to their meanings. -/

namespace Sys2Proof.Machine

/-- The effect of a command on everything but the queue. -/
def exec (i : Instr) (s : State) : Host.Outcome State Fault Refusal :=
  match i with
  | .epochRefEdge t => Sys2Proof.Machine.execEpochRefEdge t s
  | .filteredPulse pin => Sys2Proof.Machine.execFilteredPulse pin s
  | .ppsInEdge t => Sys2Proof.Machine.execPpsInEdge t s
  | .predictedEdge => Sys2Proof.Machine.execPredictedEdge s
  | .windowClose => Sys2Proof.Machine.execWindowClose s
  | .trackerStart => Sys2Proof.Machine.execTrackerStart s
  | .hostEpochMark bytes => Sys2Proof.Machine.execHostEpochMark bytes s
  | .tickSend => Sys2Proof.Machine.execTickSend s
  | .tick port seq epoch phase corr arrival => Sys2Proof.Machine.execTick port seq epoch phase corr arrival s
  | .ingestCutoff k t => Sys2Proof.Machine.execIngestCutoff k t s
  | .stepOpen k t => Sys2Proof.Machine.execStepOpen k t s
  | .almanacRelease k t => Sys2Proof.Machine.execAlmanacRelease k t s
  | .almanacSignal k t => Sys2Proof.Machine.execAlmanacSignal k t s
  | .stepCommit k t => Sys2Proof.Machine.execStepCommit k t s
  | .almanacPublish k t => Sys2Proof.Machine.execAlmanacPublish k t s
  | .timerStart k t => Sys2Proof.Machine.execTimerStart k t s
  | .timerStop k t => Sys2Proof.Machine.execTimerStop k t s
  | .almanacWake k t => Sys2Proof.Machine.execAlmanacWake k t s
  | .almanacRest k t => Sys2Proof.Machine.execAlmanacRest k t s
  | .prefetch k t => Sys2Proof.Machine.execPrefetch k t s
  | .timerExpire n => Sys2Proof.Machine.execTimerExpire n s
  | .almanacExchangeRequest page => Sys2Proof.Machine.execAlmanacExchangeRequest page s
  | .almanacExchangeCancel => Sys2Proof.Machine.execAlmanacExchangeCancel s
  | .pageValidationDone => Sys2Proof.Machine.execPageValidationDone s
  | .streamTableBaseWrite base => Sys2Proof.Machine.execStreamTableBaseWrite base s
  | .stateIn q => Sys2Proof.Machine.execStateIn q s
  | .stateInCreate q => Sys2Proof.Machine.execStateInCreate q s
  | .stateOut q => Sys2Proof.Machine.execStateOut q s
  | .stateOutEnd q => Sys2Proof.Machine.execStateOutEnd q s
  | .stepBind q => Sys2Proof.Machine.execStepBind q s
  | .exportRecord q => Sys2Proof.Machine.execExportRecord q s
  | .importRecord q => Sys2Proof.Machine.execImportRecord q s
  | .prefetchSwapInDone stream => Sys2Proof.Machine.execPrefetchSwapInDone stream s
  | .matmul q => Sys2Proof.Machine.execMatmul q s
  | .matmulRaw q => Sys2Proof.Machine.execMatmulRaw q s
  | .matmulCombine q => Sys2Proof.Machine.execMatmulCombine q s
  | .element q => Sys2Proof.Machine.execElement q s
  | .scanPrefixSum q => Sys2Proof.Machine.execScanPrefixSum q s
  | .scanSegmentedSum q => Sys2Proof.Machine.execScanSegmentedSum q s
  | .scanAffine q => Sys2Proof.Machine.execScanAffine q s
  | .reduce q => Sys2Proof.Machine.execReduce q s
  | .reduceSoftMaxThreePass q => Sys2Proof.Machine.execReduceSoftMaxThreePass q s
  | .reduceSoftMaxTwoPass q => Sys2Proof.Machine.execReduceSoftMaxTwoPass q s
  | .cacheFill q => Sys2Proof.Machine.execCacheFill q s
  | .cacheEvict q => Sys2Proof.Machine.execCacheEvict q s
  | .tableLoad q => Sys2Proof.Machine.execTableLoad q s
  | .copy q => Sys2Proof.Machine.execCopy q s
  | .fill q => Sys2Proof.Machine.execFill q s
  | .fence q => Sys2Proof.Machine.execFence q s
  | .signal q => Sys2Proof.Machine.execSignal q s
  | .nop q => Sys2Proof.Machine.execNop q s
  | .publish q => Sys2Proof.Machine.execPublish q s
  | .hostRingWrite q => Sys2Proof.Machine.execHostRingWrite q s
  | .ingest q batch => Sys2Proof.Machine.execIngest q batch s
  | .bufferGrant q => Sys2Proof.Machine.execBufferGrant q s
  | .descriptorEnd q => Sys2Proof.Machine.execDescriptorEnd q s
  | .doorbell q offset width value => Sys2Proof.Machine.execDoorbell q offset width value s
  | .heldModeSet q => Sys2Proof.Machine.execHeldModeSet q s
  | .heldModeClear q => Sys2Proof.Machine.execHeldModeClear q s
  | .queueConfigWrite o q value => Sys2Proof.Machine.execQueueConfigWrite o q value s
  | .add th d a b => Sys2Proof.Machine.execAdd th d a b s
  | .sub th d a b => Sys2Proof.Machine.execSub th d a b s
  | .and th d a b => Sys2Proof.Machine.execAnd th d a b s
  | .or th d a b => Sys2Proof.Machine.execOr th d a b s
  | .xor th d a b => Sys2Proof.Machine.execXor th d a b s
  | .shl th d a b => Sys2Proof.Machine.execShl th d a b s
  | .shr th d a b => Sys2Proof.Machine.execShr th d a b s
  | .sra th d a b => Sys2Proof.Machine.execSra th d a b s
  | .mul th d a b => Sys2Proof.Machine.execMul th d a b s
  | .mulh th d a b => Sys2Proof.Machine.execMulh th d a b s
  | .min th d a b => Sys2Proof.Machine.execMin th d a b s
  | .max th d a b => Sys2Proof.Machine.execMax th d a b s
  | .slt th d a b => Sys2Proof.Machine.execSlt th d a b s
  | .sltu th d a b => Sys2Proof.Machine.execSltu th d a b s
  | .addi th d a imm => Sys2Proof.Machine.execAddi th d a imm s
  | .andi th d a imm => Sys2Proof.Machine.execAndi th d a imm s
  | .ori th d a imm => Sys2Proof.Machine.execOri th d a imm s
  | .xori th d a imm => Sys2Proof.Machine.execXori th d a imm s
  | .shli th d a imm => Sys2Proof.Machine.execShli th d a imm s
  | .shri th d a imm => Sys2Proof.Machine.execShri th d a imm s
  | .srai th d a imm => Sys2Proof.Machine.execSrai th d a imm s
  | .muli th d a imm => Sys2Proof.Machine.execMuli th d a imm s
  | .mini th d a imm => Sys2Proof.Machine.execMini th d a imm s
  | .maxi th d a imm => Sys2Proof.Machine.execMaxi th d a imm s
  | .slti th d a imm => Sys2Proof.Machine.execSlti th d a imm s
  | .sltui th d a imm => Sys2Proof.Machine.execSltui th d a imm s
  | .lih th d imm => Sys2Proof.Machine.execLih th d imm s
  | .ld8 th d a imm => Sys2Proof.Machine.execLd8 th d a imm s
  | .ld16 th d a imm => Sys2Proof.Machine.execLd16 th d a imm s
  | .ld32 th d a imm => Sys2Proof.Machine.execLd32 th d a imm s
  | .ld64 th d a imm => Sys2Proof.Machine.execLd64 th d a imm s
  | .lds8 th d a imm => Sys2Proof.Machine.execLds8 th d a imm s
  | .lds16 th d a imm => Sys2Proof.Machine.execLds16 th d a imm s
  | .lds32 th d a imm => Sys2Proof.Machine.execLds32 th d a imm s
  | .st8 th a b imm => Sys2Proof.Machine.execSt8 th a b imm s
  | .st16 th a b imm => Sys2Proof.Machine.execSt16 th a b imm s
  | .st32 th a b imm => Sys2Proof.Machine.execSt32 th a b imm s
  | .st64 th a b imm => Sys2Proof.Machine.execSt64 th a b imm s
  | .aadd32 th d a b imm => Sys2Proof.Machine.execAadd32 th d a b imm s
  | .aadd64 th d a b imm => Sys2Proof.Machine.execAadd64 th d a b imm s
  | .aswap32 th d a b imm => Sys2Proof.Machine.execAswap32 th d a b imm s
  | .aswap64 th d a b imm => Sys2Proof.Machine.execAswap64 th d a b imm s
  | .acas32 th d a b imm => Sys2Proof.Machine.execAcas32 th d a b imm s
  | .acas64 th d a b imm => Sys2Proof.Machine.execAcas64 th d a b imm s
  | .accessResponse th n => Sys2Proof.Machine.execAccessResponse th n s
  | .beq th a b imm => Sys2Proof.Machine.execBeq th a b imm s
  | .bne th a b imm => Sys2Proof.Machine.execBne th a b imm s
  | .blt th a b imm => Sys2Proof.Machine.execBlt th a b imm s
  | .bge th a b imm => Sys2Proof.Machine.execBge th a b imm s
  | .bltu th a b imm => Sys2Proof.Machine.execBltu th a b imm s
  | .bgeu th a b imm => Sys2Proof.Machine.execBgeu th a b imm s
  | .jal th d imm => Sys2Proof.Machine.execJal th d imm s
  | .jalr th d a imm => Sys2Proof.Machine.execJalr th d a imm s
  | .qput th d a b imm => Sys2Proof.Machine.execQput th d a b imm s
  | .qputx th d a b imm => Sys2Proof.Machine.execQputx th d a b imm s
  | .qputs th d a b imm => Sys2Proof.Machine.execQputs th d a b imm s
  | .qcred th d a => Sys2Proof.Machine.execQcred th d a s
  | .qwait th a imm => Sys2Proof.Machine.execQwait th a imm s
  | .cinc th a b imm => Sys2Proof.Machine.execCinc th a b imm s
  | .cwait th a b imm => Sys2Proof.Machine.execCwait th a b imm s
  | .cread th d a imm => Sys2Proof.Machine.execCread th d a imm s
  | .ewait th a b => Sys2Proof.Machine.execEwait th a b s
  | .eread th d imm => Sys2Proof.Machine.execEread th d imm s
  | .mget th d imm => Sys2Proof.Machine.execMget th d imm s
  | .mclr th imm => Sys2Proof.Machine.execMclr th imm s
  | .spawn th d a b imm => Sys2Proof.Machine.execSpawn th d a b imm s
  | .yield th => Sys2Proof.Machine.execYield th s
  | .park th => Sys2Proof.Machine.execPark th s
  | .halt th => Sys2Proof.Machine.execHalt th s
  | .tid th d => Sys2Proof.Machine.execTid th d s
  | .fenceL th => Sys2Proof.Machine.execFenceL th s
  | .fenceG th => Sys2Proof.Machine.execFenceG th s
  | .privilegedOpcode th op => Sys2Proof.Machine.execPrivilegedOpcode th op s
  | .waitEnded th => Sys2Proof.Machine.execWaitEnded th s
  | .portGrant port => Sys2Proof.Machine.execPortGrant port s
  | .windowWrite m w off bytes => Sys2Proof.Machine.execWindowWrite m w off bytes s
  | .registerSlicesWrite viaDictionary m off bytes => Sys2Proof.Machine.execRegisterSlicesWrite viaDictionary m off bytes s
  | .cacheWriteBackStart => Sys2Proof.Machine.execCacheWriteBackStart s
  | .cacheWriteBackDone => Sys2Proof.Machine.execCacheWriteBackDone s
  | .dramTraining pass => Sys2Proof.Machine.execDramTraining pass s
  | .alertPost th size word => Sys2Proof.Machine.execAlertPost th size word s
  | .codewordUncorrectable l => Sys2Proof.Machine.execCodewordUncorrectable l s
  | .controlFlit l f => Sys2Proof.Machine.execControlFlit l f s
  | .replayTimeout l => Sys2Proof.Machine.execReplayTimeout l s
  | .rdReq l seq p => Sys2Proof.Machine.execRdReq l seq p s
  | .wrReq l seq p => Sys2Proof.Machine.execWrReq l seq p s
  | .atReq l seq p => Sys2Proof.Machine.execAtReq l seq p s
  | .rdRsp l seq p => Sys2Proof.Machine.execRdRsp l seq p s
  | .wrRsp l seq p => Sys2Proof.Machine.execWrRsp l seq p s
  | .atRsp l seq p => Sys2Proof.Machine.execAtRsp l seq p s
  | .bulkRd l seq p => Sys2Proof.Machine.execBulkRd l seq p s
  | .bulkWr l seq p => Sys2Proof.Machine.execBulkWr l seq p s
  | .vote l seq m => Sys2Proof.Machine.execVote l seq m s
  | .decide l seq m => Sys2Proof.Machine.execDecide l seq m s
  | .query l seq m => Sys2Proof.Machine.execQuery l seq m s
  | .answer l seq m => Sys2Proof.Machine.execAnswer l seq m s
  | .kppFwd l seq m => Sys2Proof.Machine.execKppFwd l seq m s
  | .kppRsp l seq m => Sys2Proof.Machine.execKppRsp l seq m s
  | .audit l seq m => Sys2Proof.Machine.execAudit l seq m s
  | .auditSend l => Sys2Proof.Machine.execAuditSend l s
  | .remoteTimeout tag => Sys2Proof.Machine.execRemoteTimeout tag s
  | .portEnable mask => Sys2Proof.Machine.execPortEnable mask s
  | .linkTrained l => Sys2Proof.Machine.execLinkTrained l s
  | .trainingTimeout l => Sys2Proof.Machine.execTrainingTimeout l s
  | .lockLoss l => Sys2Proof.Machine.execLockLoss l s
  | .retrain l => Sys2Proof.Machine.execRetrain l s
  | .voteWindowExpire p => Sys2Proof.Machine.execVoteWindowExpire p s
  | .decisionDeadline p => Sys2Proof.Machine.execDecisionDeadline p s
  | .queryTimeout p => Sys2Proof.Machine.execQueryTimeout p s
  | .recoveryEntry index gen => Sys2Proof.Machine.execRecoveryEntry index gen s
  | .partitionLock => Sys2Proof.Machine.execPartitionLock s
  | .partitionUnlock => Sys2Proof.Machine.execPartitionUnlock s
  | .reassignment p sub value => Sys2Proof.Machine.execReassignment p sub value s
  | .scrubDone engine => Sys2Proof.Machine.execScrubDone engine s
  | .auditMark => Sys2Proof.Machine.execAuditMark s
  | .read r => Sys2Proof.Machine.execRead r s
  | .write r => Sys2Proof.Machine.execWrite r s
  | .readSeg r => Sys2Proof.Machine.execReadSeg r s
  | .writeSeg r => Sys2Proof.Machine.execWriteSeg r s
  | .segAbort r => Sys2Proof.Machine.execSegAbort r s
  | .kppRelease r => Sys2Proof.Machine.execKppRelease r s
  | .clientIdleTimeout c => Sys2Proof.Machine.execClientIdleTimeout c s
  | .segmentTimeout c => Sys2Proof.Machine.execSegmentTimeout c s
  | .forwardTimeout c txn => Sys2Proof.Machine.execForwardTimeout c txn s
  | .mailboxDoorbell => Sys2Proof.Machine.execMailboxDoorbell s
  | .applyRates => Sys2Proof.Machine.execApplyRates s
  | .heartbeat => Sys2Proof.Machine.execHeartbeat s
  | .classicFrame ident => Sys2Proof.Machine.execClassicFrame ident s
  | .commandImage data => Sys2Proof.Machine.execCommandImage data s
  | .consumerTimeout => Sys2Proof.Machine.execConsumerTimeout s
  | .commandImageDelivery => Sys2Proof.Machine.execCommandImageDelivery s
  | .alertImage => Sys2Proof.Machine.execAlertImage s
  | .alertAcknowledge a => Sys2Proof.Machine.execAlertAcknowledge a s
  | .faultAcknowledge a => Sys2Proof.Machine.execFaultAcknowledge a s
  | .stateRequestConfig => Sys2Proof.Machine.execStateRequestConfig s
  | .stateRequestReady => Sys2Proof.Machine.execStateRequestReady s
  | .stateRequestRun => Sys2Proof.Machine.execStateRequestRun s
  | .registerWrite space off bytes => Sys2Proof.Machine.execRegisterWrite space off bytes s
  | .bar4Access off a => Sys2Proof.Machine.execBar4Access off a s
  | .ridxWrite q t => Sys2Proof.Machine.execRidxWrite q t s
  | .hostRingConfig q r value => Sys2Proof.Machine.execHostRingConfig q r value s
  | .pcieLinkDown cause => Sys2Proof.Machine.execPcieLinkDown cause s
  | .perstN => Sys2Proof.Machine.execPerstN s
  | .hostDmaError q e => Sys2Proof.Machine.execHostDmaError q e s
  | .functionLevelReset => Sys2Proof.Machine.execFunctionLevelReset s
  | .domainOff d => Sys2Proof.Machine.execDomainOff d s
  | .domainRetain d => Sys2Proof.Machine.execDomainRetain d s
  | .domainOn d => Sys2Proof.Machine.execDomainOn d s
  | .drainComplete d => Sys2Proof.Machine.execDrainComplete d s
  | .drainTimeout d => Sys2Proof.Machine.execDrainTimeout d s
  | .switchOnComplete d => Sys2Proof.Machine.execSwitchOnComplete d s
  | .restRequest => Sys2Proof.Machine.execRestRequest s
  | .restEntryComplete => Sys2Proof.Machine.execRestEntryComplete s
  | .restDrainTimeout => Sys2Proof.Machine.execRestDrainTimeout s
  | .wakeN => Sys2Proof.Machine.execWakeN s
  | .clkreqNWake => Sys2Proof.Machine.execClkreqNWake s
  | .canWake ident => Sys2Proof.Machine.execCanWake ident s
  | .wakeComplete => Sys2Proof.Machine.execWakeComplete s
  | .coldReset straps => Sys2Proof.Machine.execColdReset straps s
  | .warmReset cause => Sys2Proof.Machine.execWarmReset cause s
  | .warmResetDrainTimeout => Sys2Proof.Machine.execWarmResetDrainTimeout s
  | .imageStart => Sys2Proof.Machine.execImageStart s
  | .imageBlockWrite bytes => Sys2Proof.Machine.execImageBlockWrite bytes s
  | .nextImageWrite image => Sys2Proof.Machine.execNextImageWrite image s
  | .avsUpdate answered => Sys2Proof.Machine.execAvsUpdate answered s
  | .thermalWarn sensor milli => Sys2Proof.Machine.execThermalWarn sensor milli s
  | .thermalClear milli => Sys2Proof.Machine.execThermalClear milli s
  | .thermalTrip sensor milli => Sys2Proof.Machine.execThermalTrip sensor milli s
  | .supplyFault rail millivolt => Sys2Proof.Machine.execSupplyFault rail millivolt s
  | .timestamp => Sys2Proof.Machine.execTimestamp s
  | .traceEnable => Sys2Proof.Machine.execTraceEnable s
  | .overflowPacket source => Sys2Proof.Machine.execOverflowPacket source s
  | .traceRingConfig r value => Sys2Proof.Machine.execTraceRingConfig r value s
  | .debugLock => Sys2Proof.Machine.execDebugLock s
  | .epochBoundary => Sys2Proof.Machine.execEpochBoundary s
  | .streamTableCleared => Sys2Proof.Machine.execStreamTableCleared s
  | .pcieLinkUp width speed => Sys2Proof.Machine.execPcieLinkUp width speed s
  | .sysrstNRelease => Sys2Proof.Machine.execSysrstNRelease s
  | .suppliesInTolerance => Sys2Proof.Machine.execSuppliesInTolerance s
  | .supplyLoss kind => Sys2Proof.Machine.execSupplyLoss kind s
  | .temperatureBelowWarning milli => Sys2Proof.Machine.execTemperatureBelowWarning milli s
  | .jtagAccess op => Sys2Proof.Machine.execJtagAccess op s
  | .illegalInstruction th word => Sys2Proof.Machine.execIllegalInstruction th word s

end Sys2Proof.Machine
end

