-- ==== Sys2Proof/Machine/Danto.lean ====
section
/-! DEFINITION. Danto instruction words: the decoder and the encoder of the encoding tables (Table TD-5, Table TD-7,
R92, R94). -/

namespace Sys2Proof.Machine

/-- Opcodes 0x00 to 0x0F: two-register arithmetic, by opcode bits [3:0]. -/
def registerOp (k : Nat) (th : Thread) (d a b : Reg) (_i : Imm) : Option Instr :=
  match k with
  | 0x0 => some (.add th d a b)
  | 0x1 => some (.sub th d a b)
  | 0x2 => some (.and th d a b)
  | 0x3 => some (.or th d a b)
  | 0x4 => some (.xor th d a b)
  | 0x5 => some (.shl th d a b)
  | 0x6 => some (.shr th d a b)
  | 0x7 => some (.sra th d a b)
  | 0x8 => some (.mul th d a b)
  | 0x9 => some (.mulh th d a b)
  | 0xA => some (.min th d a b)
  | 0xB => some (.max th d a b)
  | 0xC => some (.slt th d a b)
  | 0xD => some (.sltu th d a b)
  | _ => none

/-- Opcodes 0x10 to 0x1F: immediate arithmetic, by opcode bits [3:0]. -/
def immediateOp (k : Nat) (th : Thread) (d a _b : Reg) (i : Imm) : Option Instr :=
  match k with
  | 0x0 => some (.addi th d a i)
  | 0x1 => some (.andi th d a i)
  | 0x2 => some (.ori th d a i)
  | 0x3 => some (.xori th d a i)
  | 0x4 => some (.shli th d a i)
  | 0x5 => some (.shri th d a i)
  | 0x6 => some (.srai th d a i)
  | 0x7 => some (.muli th d a i)
  | 0x8 => some (.mini th d a i)
  | 0x9 => some (.maxi th d a i)
  | 0xA => some (.slti th d a i)
  | 0xB => some (.sltui th d a i)
  | 0xC => some (.lih th d i)
  | _ => none

/-- Opcodes 0x20 to 0x2F: loads and stores, by opcode bits [3:0]. -/
def memoryOp (k : Nat) (th : Thread) (d a b : Reg) (i : Imm) : Option Instr :=
  match k with
  | 0x0 => some (.ld8 th d a i)
  | 0x1 => some (.ld16 th d a i)
  | 0x2 => some (.ld32 th d a i)
  | 0x3 => some (.ld64 th d a i)
  | 0x4 => some (.lds8 th d a i)
  | 0x5 => some (.lds16 th d a i)
  | 0x6 => some (.lds32 th d a i)
  | 0x8 => some (.st8 th a b i)
  | 0x9 => some (.st16 th a b i)
  | 0xA => some (.st32 th a b i)
  | 0xB => some (.st64 th a b i)
  | _ => none

/-- Opcodes 0x30 to 0x3F: atomics, branches and jumps, by opcode bits [3:0]. -/
def atomicOrBranch (k : Nat) (th : Thread) (d a b : Reg) (i : Imm) : Option Instr :=
  match k with
  | 0x0 => some (.aadd32 th d a b i)
  | 0x1 => some (.aadd64 th d a b i)
  | 0x2 => some (.aswap32 th d a b i)
  | 0x3 => some (.aswap64 th d a b i)
  | 0x4 => some (.acas32 th d a b i)
  | 0x5 => some (.acas64 th d a b i)
  | 0x8 => some (.beq th a b i)
  | 0x9 => some (.bne th a b i)
  | 0xA => some (.blt th a b i)
  | 0xB => some (.bge th a b i)
  | 0xC => some (.bltu th a b i)
  | 0xD => some (.bgeu th a b i)
  | 0xE => some (.jal th d i)
  | 0xF => some (.jalr th d a i)
  | _ => none

/-- Opcodes 0x40 to 0x4F: queues, by opcode bits [3:0]. -/
def queueOp (k : Nat) (th : Thread) (d a b : Reg) (i : Imm) : Option Instr :=
  match k with
  | 0x0 => some (.qput th d a b i)
  | 0x1 => some (.qputx th d a b i)
  | 0x2 => some (.qputs th d a b i)
  | 0x3 => some (.qcred th d a)
  | 0x4 => some (.qwait th a i)
  | _ => none

/-- Opcodes 0x50 to 0x5F: counters and time, by opcode bits [3:0]. -/
def counterOp (k : Nat) (th : Thread) (d a b : Reg) (i : Imm) : Option Instr :=
  match k with
  | 0x0 => some (.cinc th a b i)
  | 0x1 => some (.cwait th a b i)
  | 0x2 => some (.cread th d a i)
  | 0x8 => some (.ewait th a b)
  | 0x9 => some (.eread th d i)
  | _ => none

/-- Opcodes 0x60 to 0x6F: summaries and thread control, by opcode bits [3:0]. -/
def threadOp (k : Nat) (th : Thread) (d a b : Reg) (i : Imm) : Option Instr :=
  match k with
  | 0x0 => some (.mget th d i)
  | 0x1 => some (.mclr th i)
  | 0x8 => some (.spawn th d a b i)
  | 0x9 => some (.yield th)
  | 0xA => some (.park th)
  | 0xB => some (.halt th)
  | 0xC => some (.tid th d)
  | _ => none

/-- Opcodes 0x70 to 0x77: fences, by opcode bits [3:0]. -/
def fenceOp (k : Nat) (th : Thread) (_d _a _b : Reg) (_i : Imm) : Option Instr :=
  match k with
  | 0x0 => some (.fenceL th)
  | 0x1 => some (.fenceG th)
  | _ => none

/-- The instruction of an opcode and the four fields; none for an opcode that no instruction has. -/
def dantoFields (op : Nat) (th : Thread) (d a b : Reg) (i : Imm) : Option Instr :=
  match op / 16 with
  | 0 => registerOp (op % 16) th d a b i
  | 1 => immediateOp (op % 16) th d a b i
  | 2 => memoryOp (op % 16) th d a b i
  | 3 => atomicOrBranch (op % 16) th d a b i
  | 4 => queueOp (op % 16) th d a b i
  | 5 => counterOp (op % 16) th d a b i
  | 6 => threadOp (op % 16) th d a b i
  | 7 => fenceOp (op % 16) th d a b i
  | _ => none

/-- The instruction of a bed's word, for the thread that fetched it; none for a word that R92 calls illegal and for the
privileged opcodes. -/
def dantoOf (th : Thread) (w : Nat) : Option Instr :=
  if illegalWord w then none
  else dantoFields (bits w 63 56) th (BitVec.ofNat 5 (bits w 55 51)) (BitVec.ofNat 5 (bits w 50 46))
    (BitVec.ofNat 5 (bits w 45 41)) (BitVec.ofNat 41 (bits w 40 0))

/-- The word of a Danto instruction; none for a command that is no instruction of a thread's program. -/
def dantoEncode (c : Instr) : Option (Thread × Nat) :=
  match c with
  | .add th d a b => some (th, dantoWord 0x00 d a b 0)
  | .sub th d a b => some (th, dantoWord 0x01 d a b 0)
  | .and th d a b => some (th, dantoWord 0x02 d a b 0)
  | .or th d a b => some (th, dantoWord 0x03 d a b 0)
  | .xor th d a b => some (th, dantoWord 0x04 d a b 0)
  | .shl th d a b => some (th, dantoWord 0x05 d a b 0)
  | .shr th d a b => some (th, dantoWord 0x06 d a b 0)
  | .sra th d a b => some (th, dantoWord 0x07 d a b 0)
  | .mul th d a b => some (th, dantoWord 0x08 d a b 0)
  | .mulh th d a b => some (th, dantoWord 0x09 d a b 0)
  | .min th d a b => some (th, dantoWord 0x0A d a b 0)
  | .max th d a b => some (th, dantoWord 0x0B d a b 0)
  | .slt th d a b => some (th, dantoWord 0x0C d a b 0)
  | .sltu th d a b => some (th, dantoWord 0x0D d a b 0)
  | .addi th d a i => some (th, dantoWord 0x10 d a 0 i)
  | .andi th d a i => some (th, dantoWord 0x11 d a 0 i)
  | .ori th d a i => some (th, dantoWord 0x12 d a 0 i)
  | .xori th d a i => some (th, dantoWord 0x13 d a 0 i)
  | .shli th d a i => some (th, dantoWord 0x14 d a 0 i)
  | .shri th d a i => some (th, dantoWord 0x15 d a 0 i)
  | .srai th d a i => some (th, dantoWord 0x16 d a 0 i)
  | .muli th d a i => some (th, dantoWord 0x17 d a 0 i)
  | .mini th d a i => some (th, dantoWord 0x18 d a 0 i)
  | .maxi th d a i => some (th, dantoWord 0x19 d a 0 i)
  | .slti th d a i => some (th, dantoWord 0x1A d a 0 i)
  | .sltui th d a i => some (th, dantoWord 0x1B d a 0 i)
  | .lih th d i => some (th, dantoWord 0x1C d 0 0 i)
  | .ld8 th d a i => some (th, dantoWord 0x20 d a 0 i)
  | .ld16 th d a i => some (th, dantoWord 0x21 d a 0 i)
  | .ld32 th d a i => some (th, dantoWord 0x22 d a 0 i)
  | .ld64 th d a i => some (th, dantoWord 0x23 d a 0 i)
  | .lds8 th d a i => some (th, dantoWord 0x24 d a 0 i)
  | .lds16 th d a i => some (th, dantoWord 0x25 d a 0 i)
  | .lds32 th d a i => some (th, dantoWord 0x26 d a 0 i)
  | .st8 th a b i => some (th, dantoWord 0x28 0 a b i)
  | .st16 th a b i => some (th, dantoWord 0x29 0 a b i)
  | .st32 th a b i => some (th, dantoWord 0x2A 0 a b i)
  | .st64 th a b i => some (th, dantoWord 0x2B 0 a b i)
  | .aadd32 th d a b i => some (th, dantoWord 0x30 d a b i)
  | .aadd64 th d a b i => some (th, dantoWord 0x31 d a b i)
  | .aswap32 th d a b i => some (th, dantoWord 0x32 d a b i)
  | .aswap64 th d a b i => some (th, dantoWord 0x33 d a b i)
  | .acas32 th d a b i => some (th, dantoWord 0x34 d a b i)
  | .acas64 th d a b i => some (th, dantoWord 0x35 d a b i)
  | .beq th a b i => some (th, dantoWord 0x38 0 a b i)
  | .bne th a b i => some (th, dantoWord 0x39 0 a b i)
  | .blt th a b i => some (th, dantoWord 0x3A 0 a b i)
  | .bge th a b i => some (th, dantoWord 0x3B 0 a b i)
  | .bltu th a b i => some (th, dantoWord 0x3C 0 a b i)
  | .bgeu th a b i => some (th, dantoWord 0x3D 0 a b i)
  | .jal th d i => some (th, dantoWord 0x3E d 0 0 i)
  | .jalr th d a i => some (th, dantoWord 0x3F d a 0 i)
  | .qput th d a b i => some (th, dantoWord 0x40 d a b i)
  | .qputx th d a b i => some (th, dantoWord 0x41 d a b i)
  | .qputs th d a b i => some (th, dantoWord 0x42 d a b i)
  | .qcred th d a => some (th, dantoWord 0x43 d a 0 0)
  | .qwait th a i => some (th, dantoWord 0x44 0 a 0 i)
  | .cinc th a b i => some (th, dantoWord 0x50 0 a b i)
  | .cwait th a b i => some (th, dantoWord 0x51 0 a b i)
  | .cread th d a i => some (th, dantoWord 0x52 d a 0 i)
  | .ewait th a b => some (th, dantoWord 0x58 0 a b 0)
  | .eread th d i => some (th, dantoWord 0x59 d 0 0 i)
  | .mget th d i => some (th, dantoWord 0x60 d 0 0 i)
  | .mclr th i => some (th, dantoWord 0x61 0 0 0 i)
  | .spawn th d a b i => some (th, dantoWord 0x68 d a b i)
  | .yield th => some (th, dantoWord 0x69 0 0 0 0)
  | .park th => some (th, dantoWord 0x6A 0 0 0 0)
  | .halt th => some (th, dantoWord 0x6B 0 0 0 0)
  | .tid th d => some (th, dantoWord 0x6C d 0 0 0)
  | .fenceL th => some (th, dantoWord 0x70 0 0 0 0)
  | .fenceG th => some (th, dantoWord 0x71 0 0 0 0)
  | _ => none

end Sys2Proof.Machine
end

