-- ==== Sys2Proof/Machine/Pins.lean ====
section
/-! DEFINITION. The output pins: their levels are no state of their own, the state determines them
(R32, R334, R390, R402, R414 to R418; DEDUCED, log 118). -/

namespace Sys2Proof.Machine

/-- The level of an output. An output that moves in time with a clock or with bits under way is `moving`. -/
inductive PinLevel where
  | low
  | high
  | hiZ
  | moving
  deriving DecidableEq, Repr

/-- An open-drain output: pulled low, or released. -/
def openDrain (pulls : Bool) : PinLevel := if pulls then .low else .hiZ

/-- The SX4 is without supplies (R416). -/
def State.unpowered (s : State) : Bool := decide (s.power.dev = .off)

/-- The Keeper drives the 1.8 V outputs: from the start of its image on, in a warm reset from its restart on (R414, R415). -/
def State.driven (s : State) : Bool := s.imageRuns || (s.power.warmed && decide (s.power.dev = .boot))

/-- A 1.8 V output that is high-impedance in reset (Table SE-10). -/
def State.output (s : State) (l : PinLevel) : PinLevel := if s.driven then l else .hiZ

/-- `EPOCH_OUT` is within its pulse: 1 µs from 128 cycles after the epoch's begin, in LOCKED and FLYWHEEL (R32). -/
def State.epochPulse (s : State) : Bool :=
  (decide (s.tracker.state = .locked) || decide (s.tracker.state = .flywheel)) && s.objOn 0x2000 3 &&
    match s.tracker.outRise with
    | some r => decide (r ≤ (s.cycle : Int)) && decide ((s.cycle : Int) < r + 1000)
    | none => false

/-- `EPOCH_OUT`; it goes on working in a warm reset, through which the Tracker runs (R31, R415). -/
def State.epochOut (s : State) : PinLevel :=
  if s.unpowered then .hiZ
  else if s.imageRuns || s.power.warmed then (if s.epochPulse then .high else .low)
  else .hiZ

/-- `ALERT_N`: low while a fault of WARN or above, or an alert, is unread (R334); released in a cold reset, and as it was
in a warm one (R414, R415). -/
def State.alertN (s : State) : PinLevel :=
  openDrain ((s.imageRuns || s.power.warmed) && ((s.faults.log.any fun r => decide (1 ≤ r.sev.toNat)) || !s.alerts.ring.isEmpty))

/-- `FAULT_N`: low in FAULT (R334, R370). -/
def State.faultN (s : State) : PinLevel := openDrain (decide (s.power.dev = .fault))

/-- `THERM_N`: low from the warning until the die has cooled by 2 °C (R390); released in reset (R414, R415). -/
def State.thermN (s : State) : PinLevel := openDrain (s.driven && s.power.thermLow)

/-- `CLKREQ_N`: low while the PCIe link is up (Table SE-10). -/
def State.clkreqN (s : State) : PinLevel := openDrain (s.driven && s.host.linkUp)

/-- `CAN_TXD` between frames: recessive, in a warm reset too (R415). -/
def State.canTxd (s : State) : PinLevel :=
  if s.imageRuns || s.power.warmed then .high else .hiZ

/-- `QSPI_SCK` and `QSPI_CS_N` between accesses (Table SE-10). -/
def State.qspiPins (s : State) : PinLevel × PinLevel := (s.output .low, s.output .high)

/-- `QSPI_IO[3]` and `QSPI_IO[2]` outside four-bit phases (Table SE-10). -/
def State.qspiIo (s : State) : PinLevel × PinLevel := (s.output .high, s.output .high)

/-- `AVS_CLK` and `AVS_MDATA` (R389, Table SE-10). -/
def State.avsPins (s : State) : PinLevel := s.output .moving

/-- `TDO` between shifts, and while the TAP is held (R405, Table SE-10). -/
def tdo : PinLevel := .hiZ

/-- `GPIO[7:0]` are inputs until the Keeper image drives them, to whom they belong (Table SE-10). -/
def State.gpioInputs (s : State) : Bool := !s.driven

/-- The weak pull of a pin (R414). -/
inductive Pull where
  | up
  | down
  | none
  deriving DecidableEq, Repr

/-- The level that an output with a weak pull shows when nothing else drives it (R414). -/
def PinLevel.pulled (l : PinLevel) (p : Pull) : PinLevel :=
  match l, p with
  | .hiZ, .up => .high
  | .hiZ, .down => .low
  | l, _ => l

/-- Pulls of the outputs of Table SE-10: `CAN_TXD`, `QSPI_SCK`, `QSPI_CS_N`, `QSPI_IO`, `EPOCH_OUT`, `AVS_CLK` and
`AVS_MDATA`, `TRACE_CLK`, `TRACE_CTL` and `TRACE_D`, `GPIO`, `TDO`. -/
def outputPulls : List Pull := [.none, .down, .up, .up, .down, .up, .down, .down, .none]

/-- `TRACE_CLK`: runs while trace is enabled and goes to the pins, else low (R402). -/
def State.traceClk (s : State) : PinLevel :=
  s.output (if s.traceOn && decide (s.obj 0x7800 2 = 0) then .moving else .low)

/-- `TRACE_CTL` and `TRACE_D[15:0]` of an edge: a packet's two bytes, or idle (R402). -/
def traceEdge (two : Option (Byte × Byte)) : Bool × BitVec 16 :=
  match two with
  | some (lo, hi) => (true, hi ++ lo)
  | none => (false, 0)

/-- The edges that carry a packet, two bytes on each (R402). -/
def packetEdges : List Byte → List (Bool × BitVec 16)
  | lo :: hi :: rest => traceEdge (some (lo, hi)) :: packetEdges rest
  | _ => []

/-- The LPDDR5X pins of a channel: `RESET_N`, `CS`, the true and complement clocks, `CA[6:0]`, and the data pins. -/
structure DramPins where
  resetN : PinLevel
  cs : PinLevel
  clockT : PinLevel
  clockC : PinLevel
  ca : PinLevel
  data : PinLevel
  deriving DecidableEq, Repr

/-- Table SE-11, for channel pair 0 (DC0, DC1) or 1 (DC2, DC3). -/
def State.dramPins (s : State) (pair : Nat) : DramPins :=
  if s.unpowered then ⟨.hiZ, .hiZ, .hiZ, .hiZ, .hiZ, .hiZ⟩
  else if pair = 1 && s.twoChannels then ⟨.low, .low, .low, .high, .low, .hiZ⟩
  else if s.obj 0x3400 4 = 0 && s.power.savedTraining.isEmpty then ⟨.low, .low, .low, .high, .low, .hiZ⟩
  else if !s.imageRuns || decide (s.power.rest = .asleep) then ⟨.high, .low, .low, .high, .low, .hiZ⟩
  else ⟨.high, .moving, .moving, .moving, .moving, .moving⟩

/-- Electrical idle of a Trellis port's transmitters (R418). -/
def State.trellisIdle (s : State) (l : Nat) : Bool :=
  decide (s.power.dev = .off) || decide (s.power.dev = .reset) || !s.isOn (46 + l / 4) ||
    decide ((s.link l).state = .disabled) || decide ((s.link l).state = .down)

/-- Electrical idle of the PCIe transmitters (R338, R418). -/
def State.pcieIdle (s : State) : Bool :=
  decide (s.power.dev = .off) || decide (s.power.dev = .reset) || !s.isOn 48 || s.power.perstLow

end Sys2Proof.Machine
end

