-- ==== Sys2Proof/Safety.lean ====
section
/-! DEFINITION. The terms in which the claims speak: safe outcomes, what an instruction touches, a fault raised. -/

namespace Sys2Proof.Machine

/-- A safe outcome: the block goes on. -/
def Goes (o : Host.Outcome State Fault Refusal) : Prop := ∃ t, o = .next t

/-- Thread th may issue, and no register among rs still waits for its result (R81, R82). -/
def State.mayIssue (s : State) (th : Thread) (rs : List Reg) : Prop :=
  s.issues th = true ∧ (s.context (Thread.num th)).awaited rs = []

/-- From s to t nothing changed but context n and the order of issue. -/
def OnlyContext (s t : State) (n : Nat) : Prop :=
  t = { s with contexts := t.contexts, lastIssue := t.lastIssue } ∧ ∀ m, m ≠ n → t.context m = s.context m

/-- A context after an instruction that wrote v to register d and nothing else; a write to s0 is discarded (R84). -/
def Context.wrote (c c' : Context) (d : Reg) (v : W64) : Prop :=
  (∀ r, c'.reg r = if r = 0 then 0 else if r = d then v else c.reg r) ∧ c'.pc = c.pc + 8 ∧ c'.state = c.state ∧
    c'.wait = c.wait ∧ c'.mregs = c.mregs ∧ c'.outstanding.length = c.outstanding.length

/-- A fault was raised between s and t: its code was counted, and its record is in the log if the log admitted
it (R331, R332). -/
def Raised (s t : State) (code : Nat) (who : BitVec 8) (unit addr det0 det1 : Nat) : Prop :=
  t.obj (0x7010 + code / 256) (code % 256) = (s.obj (0x7010 + code / 256) (code % 256) + 1) % 2 ^ 32 ∧
  (logAdmits (severity code) s.faults.log.length = true → ∃ r ∈ t.faults.log,
    r.code = BitVec.ofNat 16 code ∧ r.sev = BitVec.ofNat 8 (severity code) ∧ r.part = who ∧
    r.unit = BitVec.ofNat 16 unit ∧ r.seq = s.faultSeq code unit ∧ r.addr = BitVec.ofNat 64 addr ∧
    r.det0 = BitVec.ofNat 64 det0 ∧ r.det1 = BitVec.ofNat 64 det1)

/-- Every table of the state is in its canonical form: rising keys, no entry equal to its default. -/
def State.wf (s : State) : Prop :=
  Memory.wf s.mem ∧ twf {} s.contexts = true ∧ twf {} s.queues = true ∧ twf 0 s.counters = true

/-! ## Terms of the statements, family by family -/

/-! ### Danto: integer arithmetic -/

/-- The two-register instructions of Table TD-7 and their results. -/
def twoRegisterTable (th : Thread) (d a b : Reg) : List (Instr × (W64 → W64 → W64)) := [
  (.add th d a b, fun x y => BitVec.ofNat 64 (x.toNat + y.toNat)),
  (.sub th d a b, fun x y => BitVec.ofInt 64 ((x.toNat : Int) - y.toNat)),
  (.and th d a b, fun x y => BitVec.ofNat 64 (x.toNat &&& y.toNat)),
  (.or th d a b, fun x y => BitVec.ofNat 64 (x.toNat ||| y.toNat)),
  (.xor th d a b, fun x y => BitVec.ofNat 64 (x.toNat ^^^ y.toNat)),
  (.shl th d a b, fun x y => BitVec.ofNat 64 (x.toNat * 2 ^ (y.toNat % 64))),
  (.shr th d a b, fun x y => BitVec.ofNat 64 (x.toNat / 2 ^ (y.toNat % 64))),
  (.sra th d a b, fun x y => BitVec.ofInt 64 (x.toInt / 2 ^ (y.toNat % 64))),
  (.mul th d a b, fun x y => BitVec.ofNat 64 (x.toNat * y.toNat)),
  (.mulh th d a b, fun x y => BitVec.ofInt 64 (x.toInt * y.toInt / 2 ^ 64)),
  (.min th d a b, fun x y => BitVec.ofInt 64 (Min.min x.toInt y.toInt)),
  (.max th d a b, fun x y => BitVec.ofInt 64 (Max.max x.toInt y.toInt)),
  (.slt th d a b, fun x y => if x.toInt < y.toInt then 1 else 0),
  (.sltu th d a b, fun x y => if x.toNat < y.toNat then 1 else 0)]

/-- The immediate instructions of Table TD-7 and their results: i is the immediate as a signed number. -/
def immediateTable (th : Thread) (d a : Reg) (i : Imm) : List (Instr × (W64 → Int → W64)) := [
  (.addi th d a i, fun x y => BitVec.ofInt 64 (x.toInt + y)),
  (.andi th d a i, fun x y => x &&& BitVec.ofInt 64 y),
  (.ori th d a i, fun x y => x ||| BitVec.ofInt 64 y),
  (.xori th d a i, fun x y => x ^^^ BitVec.ofInt 64 y),
  (.shli th d a i, fun x y => BitVec.ofNat 64 (x.toNat * 2 ^ (y % 64).toNat)),
  (.shri th d a i, fun x y => BitVec.ofNat 64 (x.toNat / 2 ^ (y % 64).toNat)),
  (.srai th d a i, fun x y => BitVec.ofInt 64 (x.toInt / 2 ^ (y % 64).toNat)),
  (.muli th d a i, fun x y => BitVec.ofInt 64 (x.toInt * y)),
  (.mini th d a i, fun x y => BitVec.ofInt 64 (Min.min x.toInt y)),
  (.maxi th d a i, fun x y => BitVec.ofInt 64 (Max.max x.toInt y)),
  (.slti th d a i, fun x y => if x.toInt < y then 1 else 0),
  (.sltui th d a i, fun x y => if x.toNat < (BitVec.ofInt 64 y).toNat then 1 else 0)]

/-! ### Danto: loads, stores and atomics -/

/-- The access instructions: source registers, size, kind, and what goes to the matrix (Table TD-7, R96). -/
def accessTable (th : Thread) (d a b : Reg) (i : Imm) (c : Context) :
    List (Instr × List Reg × Nat × AccessKind × Op) := [
  (.ld8 th d a i, [a], 1, .load d false, .read), (.ld16 th d a i, [a], 2, .load d false, .read),
  (.ld32 th d a i, [a], 4, .load d false, .read), (.ld64 th d a i, [a], 8, .load d false, .read),
  (.lds8 th d a i, [a], 1, .load d true, .read), (.lds16 th d a i, [a], 2, .load d true, .read),
  (.lds32 th d a i, [a], 4, .load d true, .read),
  (.st8 th a b i, [a, b], 1, .store, .write (natLe (c.reg b).toNat 1)),
  (.st16 th a b i, [a, b], 2, .store, .write (natLe (c.reg b).toNat 2)),
  (.st32 th a b i, [a, b], 4, .store, .write (natLe (c.reg b).toNat 4)),
  (.st64 th a b i, [a, b], 8, .store, .write (natLe (c.reg b).toNat 8)),
  (.aadd32 th d a b i, [a, b], 4, .atomic d, .atomic .add (c.reg b) (c.reg d)),
  (.aadd64 th d a b i, [a, b], 8, .atomic d, .atomic .add (c.reg b) (c.reg d)),
  (.aswap32 th d a b i, [a, b], 4, .atomic d, .atomic .swap (c.reg b) (c.reg d)),
  (.aswap64 th d a b i, [a, b], 8, .atomic d, .atomic .swap (c.reg b) (c.reg d)),
  (.acas32 th d a b i, [a, b, d], 4, .atomic d, .atomic .cas (c.reg b) (c.reg d)),
  (.acas64 th d a b i, [a, b, d], 8, .atomic d, .atomic .cas (c.reg b) (c.reg d))]

/-- The address a + i that an access instruction names. -/
def accessAddress (s : State) (th : Thread) (a : Reg) (i : Imm) : W64 :=
  (s.context (Thread.num th)).reg a + i.signExtend 64

/-! ### Danto: branches -/

/-- The conditional branches and their conditions (Table TD-7). -/
def branchTable (th : Thread) (a b : Reg) (i : Imm) : List (Instr × (W64 → W64 → Prop)) := [
  (.beq th a b i, fun x y => x = y), (.bne th a b i, fun x y => x ≠ y),
  (.blt th a b i, fun x y => x.toInt < y.toInt), (.bge th a b i, fun x y => y.toInt ≤ x.toInt),
  (.bltu th a b i, fun x y => x.toNat < y.toNat), (.bgeu th a b i, fun x y => y.toNat ≤ x.toNat)]

/-- A good branch or jump target (R95). -/
def goodTarget (pc : W64) : Prop := pc.toNat % 8 = 0 ∧ pc.toNat < 256 * 1024

/-! ### Danto: counters, time, summaries, thread control -/

/-- The selected counter of an instruction: (a + i)[9:0], its bed in bits [9:8], its number in bits [5:0] (R86). -/
def selectedCounter (c : Context) (a : Reg) (i : Imm) : Nat × Nat :=
  let v := (c.reg a + i.signExtend 64).toNat % 1024
  (v / 256, v % 64)

/-! ### Queues -/

/-- The push instructions: entries pushed, and whether the second half comes from s16 to s23 (R99). -/
def pushTable (th : Thread) (d a b : Reg) (i : Imm) : List (Instr × Nat × Bool) :=
  [(.qput th d a b i, 1, false), (.qputx th d a b i, 2, false), (.qputs th d a b i, 2, true)]

/-- Registers a push instruction reads (R99). -/
def pushSources (a b : Reg) (fromRegs : Bool) : List Reg :=
  if fromRegs then [a, b, 16, 17, 18, 19, 20, 21, 22, 23] else [a, b]

/-- Bytes of the Thread Store that a push instruction reads. -/
def pushBytes (entries : Nat) (fromRegs : Bool) : Nat := if fromRegs then 64 else 64 * entries

/-- The 64 bytes that s16 to s23 give, least significant byte of s16 first. -/
def pushedRegisters (c : Context) : List Byte :=
  [16, 17, 18, 19, 20, 21, 22, 23].flatMap fun r => natLe (c.reg (BitVec.ofNat 5 r)).toNat 8

/-- No scrub stands over n entries of queue q's ring from index i on (R288). -/
def State.ringOpen (s : State) (q : Nat) (i : W32) (n : Nat) : Prop :=
  ∀ j, j < n → s.ringDenied q (s.entryKey q (i + BitVec.ofNat 32 j).toNat) 64 true = none

/-! ### Descriptors -/

/-- The descriptor commands, and the descriptors that each takes from the front of its queue (Table QD-7). -/
def descriptorTable (q : QueueId) : List (Instr × (Desc → Bool)) := [
  (.matmul q, fun d => d.opc = 0x10 && d.raw == d.combine), (.matmulRaw q, fun d => d.opc = 0x10 && d.raw && !d.combine),
  (.matmulCombine q, fun d => d.opc = 0x10 && d.combine && !d.raw), (.element q, fun d => d.opc = 0x20),
  (.scanPrefixSum q, fun d => d.opc = 0x22 && d.kind ≠ 1 && d.kind ≠ 2),
  (.scanSegmentedSum q, fun d => d.opc = 0x22 && d.kind = 1), (.scanAffine q, fun d => d.opc = 0x22 && d.kind = 2),
  (.reduce q, fun d => d.opc = 0x21 && d.smax ≠ 1 && d.smax ≠ 2),
  (.reduceSoftMaxThreePass q, fun d => d.opc = 0x21 && d.smax = 1),
  (.reduceSoftMaxTwoPass q, fun d => d.opc = 0x21 && d.smax = 2), (.cacheFill q, fun d => d.opc = 0x42),
  (.cacheEvict q, fun d => d.opc = 0x43), (.copy q, fun d => d.opc = 0x40), (.fill q, fun d => d.opc = 0x41),
  (.signal q, fun d => d.opc = 0x71), (.nop q, fun d => d.opc = 0x7F)]

/-- The work of a queue's descriptor is over with this ending (Table QD-6). -/
def EndsWith (t : State) (q status code detail : Nat) : Prop :=
  ∃ r, (t.queue q).run = some r ∧ r.phase = .finished ∧ r.ending.status = BitVec.ofNat 8 status ∧
    r.ending.code = BitVec.ofNat 16 code ∧ r.ending.detail = BitVec.ofNat 32 detail

/-- Queue q has dispatched the descriptor d: `DISP` is past it and it runs (R114). -/
def Dispatched (s t : State) (q : Nat) (d : Desc) : Prop :=
  (t.queue q).disp = (s.queue q).disp + (if d.two then 2 else 1) ∧ (t.queue q).tail = (s.queue q).tail ∧
    (t.queue q).head = (s.queue q).head ∧ ∃ r, (t.queue q).run = some r ∧ r.index = d.index ∧ r.two = d.two

/-- The checks of R122 that every opcode shares pass for the front descriptor of a queue, and its field ranges too; no
scrub stands over its ring entry. -/
def Accepted (s : State) (q : Nat) (d : Desc) (ranges : Option Nat) : Prop :=
  s.front q = some d ∧ s.ringOpen q d.index 1 ∧ (s.startRun q d).headerCheck q d ranges = none

/-! ### Accesses of the units -/

/-- Every piece of len bytes from addr on that master m would access for `who` lies in memory outside the State Store, and
its target accepts it (R229 to R231, R240, R283, R288). -/
def State.opens (s : State) (m : Nat) (who : BitVec 8) (wr : Bool) (addr len : Nat) : Prop :=
  ∀ a n, addr ≤ a → 1 ≤ n → a + n ≤ addr + len → a % 64 + n ≤ 64 →
    regionOf a ≠ 1 ∧ ∃ k, s.resolve { unitRq m who wr with addr := a, len := n } = .ok (.mem k)

/-- The State Mover reads, or writes, every piece of len bytes of the State Store from a physical offset for `who` (R57,
R231, R283, R288). -/
def State.storeOpen (s : State) (who : BitVec 8) (wr : Bool) (off len : Nat) : Prop :=
  ∀ a n, off ≤ a → 1 ≤ n → a + n ≤ off + len → a % 64 + n ≤ 64 →
    s.resolve { unitRq 8 who wr with addr := localAddr 1 a, len := n } = .ok (.mem (memKey 1 a))

/-- A stream of vl elements of a format code, which the units of queue q's bed can read, or write; an unused one is none. -/
def State.streamOpen (s : State) (q : Nat) (wr : Bool) (addr code vl : Nat) : Prop :=
  code = 0 ∨ s.opens (4 + s.qBed q) (s.qWho q) wr addr (vl * formatSize code)

/-- The n operation words at an address (R178). -/
def State.stickAt (s : State) (addr n : Nat) : List StickOp :=
  (List.range n).map fun i => stickOpOf (s.rdNat ((addr + 8 * i) % 2 ^ 53) 8)

/-- The work of queue q's descriptor begins on this state. -/
def State.working (u : State) (q : QueueId) : State := { u with asking := some { queue := q } }

/-- The work of queue q's descriptor has come to state u without a question to another device (R256). -/
def Unasked (u : State) (q : QueueId) : Prop := (u.asking.bind fun a => a.want) = none ∧ (u.queue q).run.isSome = true

/-- A `MATMUL` on one bed, without rows of a batch and with all of K, whose accumulators, weights, activation, stick of n
words, scales and results lie where its bed reaches them, with no word in error (R134 to R140, R148, R152, R175). -/
def State.matmulOpen (s : State) (q : Nat) (d : Desc) (n : Nat) : Prop :=
  let b := s.qBed q
  let opens := s.opens (4 + b) (s.qWho q)
  s.matrix.ecc = [] ∧ s.scrubs = [] ∧ d.tag = 0 ∧ d.split = 0 ∧ d.chainRole = .none ∧ s.stagedBeds d = [] ∧
    s.issueCheck d = none ∧ s.isOn (4 + 9 * b) = true ∧ (∀ x ∈ d.arrays, s.isOn (5 + 9 * b + x) = true) ∧
    opens false (d.f 32 8) (d.m * d.k * d.actSize) ∧
    (d.resident = true → bits d.wsrc 47 0 + d.groups * d.kt * d.passes * 2 ^ 18 ≤ 2 ^ 20) ∧
    (d.resident = false → opens false d.wsrc (d.n / 512 * d.kt * d.passes * 2 ^ 18)) ∧
    (d.raw = true → opens true d.psum (d.m * d.n * 8)) ∧
    (d.raw = false → opens false (d.f 64 8) (8 * n) ∧ opens false (d.f 72 8) (4 * d.n) ∧
      ∀ r, r < d.m → opens true (d.f 48 8 + r * d.f 58 2 * 64) (d.n * formatSize d.ofmt))

/-! ### Epoch Tracker -/

/-- No source change waits for the next boundary (R24). -/
def State.sourceSettled (s : State) : Prop := sourceOf (s.obj 0x2000 1) = s.tracker.source

/-- The first whole cycle at or after a time counted in 1/256 cycles. -/
def firstCycle (x : Int) : Int := -((-x) / 256)

/-- A port carries a packet now or queues it behind the earlier ones (R257). -/
def SentOrQueued (s t : State) (l : Nat) (b : PacketBody) : Prop :=
  (∃ x, (t.link l).queued = (s.link l).queued ++ [x] ∧ x.body = b) ∨
    ((t.link l).replay = (s.link l).replay ++ [{ seq := (s.link l).txSeq, body := b }] ∧
      (t.link l).txSeq = (s.link l).txSeq + BitVec.ofNat 12 b.flits)

/-! ### Almanac -/

/-- Entry k of the Almanac comes up at cycle t, is next in order, has this action and takes effect (R34, R35, R45). -/
def Fires (s : State) (k : EntryId) (t act : Nat) (b : Backlog) : Prop :=
  (s.advance t).nextFiring = some b ∧ b.index = k.val ∧ bits b.bits.toNat 63 60 = act ∧
    ((s.advance t).popFiring b).takesEffect b = true

/-! ### Streams and their state -/

/-- A stream table entry whose fields fit Table SS-1. -/
def Entry.fits (e : Entry) : Prop :=
  e.life ≠ .unused ∧ e.part < 8 ∧ e.size < 8 ∧ e.seed < 16 ∧ e.slot < 2 ^ 15 ∧ e.gen < 2 ^ 32 ∧ e.look < 2 ^ 7 ∧
    e.home < 2 ^ 25 ∧ e.miss < 2 ^ 32 ∧ e.bank < 2 ^ 48 ∧ e.slen < 2 ^ 16 ∧ e.ring < 2 ^ 48 ∧ e.rsz < 2 ^ 8

/-- A slot header whose fields fit Table SS-3. -/
def Header.fits (h : Header) : Prop :=
  h.stream < 2 ^ 18 ∧ h.gen < 2 ^ 32 ∧ h.batch < 2 ^ 16 ∧ h.row < 2 ^ 7 ∧ h.miss < 2 ^ 32 ∧ h.cepoch < 2 ^ 48 ∧
    h.slen < 2 ^ 16

/-- The state descriptors and the form that each takes (Table QD-10). -/
def stateTable (q : QueueId) : List (Instr × Nat × Bool) :=
  [(.stateIn q, 0x30, false), (.stateInCreate q, 0x30, true), (.stateOut q, 0x31, false), (.stateOutEnd q, 0x31, true)]

/-- The table is set up, holds stream i for partition p, and the State Mover reaches its entry, with no word in error
(R47 to R51, R223). -/
def EntryReached (u : State) (q i : Nat) : Prop :=
  u.matrix.ecc = [] ∧ u.streams.tableSet = true ∧ u.streams.clearing = false ∧ u.inRange (u.qPart q) i = true ∧
    ∃ k, u.resolve { master := 8, who := u.qWho q, addr := u.entryAddr i, len := 32, rd := true, wr := true } = .ok k

/-- A state descriptor of this form is accepted and reaches its stream's entry e. -/
def StateDescriptor (s : State) (q : Nat) (d : Desc) (opc : Nat) (form : Bool) (e : Entry) : Prop :=
  Accepted s q d (if opc = 0x30 ∧ form then createRanges d else none) ∧ d.opc = opc ∧ (d.f 16 4).testBit 31 = form ∧
    (s.queue q).run = none ∧ EntryReached (s.startRun q d) q (d.f 16 4 % 2 ^ 18) ∧
    (s.startRun q d).entry (d.f 16 4 % 2 ^ 18) = e

/-! ### Host port -/

/-- The record of row r with stream i of a `PUBLISH` descriptor: its committed scores, else the head alone with flag 0
(R352, R353, Table HP-9). -/
def State.publishRecord (s : State) (q : Nat) (d : Desc) (r i : Nat) : List Byte :=
  let z := formatSize (d.f 20 1)
  let e := s.entry i
  let id := s.chip.toNat * 2 ^ 18 + i
  let epoch := (s.epoch - BitVec.ofNat 48 e.look).toNat
  let topk := if d.f 16 1 = 0 then 8 else 0
  if s.committedNow (s.qPart q) i e then
    let body := scoreBody d (s.rdBytes ((d.f 24 8 + r * roundUp (d.f 18 2 * z) 64) % 2 ^ 53) (d.f 18 2 * z))
    let n := roundUp (16 + body.2.length) 64
    slice (publishHead id epoch topk (d.f 20 1) body.1 n ++ body.2) 0 n
  else publishHead id epoch (1 + topk) (d.f 20 1) 0 64 ++ zeros 48

/-- The engine reads what the record of row r with stream i needs (R352). -/
def State.publishOpen (s : State) (q : Nat) (d : Desc) (r i : Nat) : Prop :=
  let n := d.f 18 2 * formatSize (d.f 20 1)
  s.entryOff i + 32 ≤ 2 ^ 48 ∧ s.opens 13 (s.qWho q) false (s.entryAddr i) 32 ∧
    (s.committedNow (s.qPart q) i (s.entry i) = true → s.opens 13 (s.qWho q) false (d.f 24 8 + r * roundUp n 64) n)

/-- What Table HP-7 decides on a frame record of queue q in this cycle (R346). -/
def State.verdict (s : State) (q : Nat) (l : List Byte) : Verdict :=
  let i := field l 0 4 % 2 ^ 18
  if frameWellFormed l && decide (field l 0 4 / 2 ^ 18 = s.chip.toNat) && s.inRange (s.qPart q) i &&
      s.streams.tableSet && !s.streams.clearing then s.judgeEntry q l (s.entry i)
  else .rejected

/-- The engine reads the stream table entry that a frame record names, at once and with no word in error. -/
def State.frameOpen (s : State) (q : Nat) (l : List Byte) : Prop :=
  let i := field l 0 4 % 2 ^ 18
  s.matrix.ecc = [] ∧ s.anySealed = false ∧ s.power.dev ≠ .rest ∧
    (s.inRange (s.qPart q) i = true → s.streams.tableSet = true →
      s.entryOff i + 32 ≤ 2 ^ 48 ∧ s.opens 13 (s.qWho q) false (s.entryAddr i) 32)

/-- The engine writes all that an accepted frame record goes to: the buffer pool, the partition's frame list, and the
stream's look-back ring (R77, R347, R349). -/
def State.poolOpen (s : State) (q : Nat) (l : List Byte) : Prop :=
  let ep := BitVec.ofNat 48 (field l 4 6)
  let p := s.qPart q
  let opens := s.opens 13 (s.qWho q) true
  let e := (s.setUpList p ep).entry (field l 0 4 % 2 ^ 18)
  (∀ b ∈ s.host.buffers, b.number < Config.poolBuffers) ∧
    opens (localAddr 0 (s.obj 0x3500 1)) (Config.poolBuffers * 4096) ∧
    opens (localAddr 0 (s.listOff p ep)) (64 + 16 * 65536) ∧
    (e.look ≠ 0 → opens (localAddr 0 e.ring) ((e.look + 2) * (e.rsz * 64)))

/-- A frame record of queue q finds a buffer: the queue's for its epoch has room, or one is free that no queue before it
waits for (R347). -/
def State.bufferReady (s : State) (q : QueueId) (l : List Byte) (first : Bool) : Prop :=
  match (s.currentBuffer q (BitVec.ofNat 48 (field l 4 6))).filter fun b => decide (b.fill + field l 14 2 ≤ 4096) with
  | some _ => True
  | none => (first = true ∨ s.host.waiters = []) ∧ s.freeBuffers ≠ []

/-- From s to t a frame record was decided: counted once, as received and as v (R10, R346). -/
def FrameCounted (s t : State) (v : Verdict) : Prop :=
  t.host.framesReceived = s.host.framesReceived + 1 ∧
  t.host.framesAccepted = s.host.framesAccepted + (if v = .accepted then 1 else 0) ∧
  t.host.framesLate = s.host.framesLate + (if v = .late then 1 else 0) ∧
  t.host.framesRejected = s.host.framesRejected + (if v = .rejected then 1 else 0)

/-! ### Matrix -/

/-- From s to t a port granted r: r waits no more, and its requester has this reply (R236, R238, R239). -/
def Granted (s t : State) (r : Request) (x : Reply) : Prop :=
  (∀ y ∈ t.matrix.requests, y.id ≠ r.id) ∧
    match r.origin with
    | .thread th => t.matrix.responses = s.matrix.responses ++
        [{ id := r.id, origin := .thread th, target := r.port.target.val, reply := x }]
    | .host => s.isOn 48 = true → t.outputs.hostReplies = s.outputs.hostReplies ++ [x]

/-- A request for one piece of a 64-byte line. -/
def Request.onePiece (r : Request) : Prop := 1 ≤ r.len ∧ r.addr.toNat % 64 + r.len ≤ 64

/-- What a granted request asks of the windows: to read, to write, or both (R230). -/
def Request.asks (r : Request) : Rq :=
  match r.op with
  | .read => { r.rq with wr := false }
  | .write _ => { r.rq with rd := false }
  | .atomic _ _ _ => r.rq

/-- The state as the target of a request sees it: one admitted before its target's fence does not meet the fence (R240). -/
def State.seenBy (s : State) (r : Request) : State :=
  if r.admitted then { s with power := { s.power with domains := s.power.domains.filter fun e => match e.2 with
    | .draining _ => false
    | _ => true } }
  else s

/-- Every piece of a request, cut at the ends of 64-byte lines, reaches memory at its place from key k on. -/
def State.reaches (s : State) (r : Rq) (k : Nat) : Prop :=
  ∀ a n, r.addr ≤ a → 1 ≤ n → a + n ≤ r.addr + r.len → a % 64 + n ≤ 64 → (a = r.addr ∨ a % 64 = 0) →
    (a + n = r.addr + r.len ∨ (a + n) % 64 = 0) → s.resolve { r with addr := a, len := n } = .ok (.mem (k + (a - r.addr)))

/-- A write of register space by master m at an offset gets through the windows (R229, R230, R234). -/
def State.spaceOpen (s : State) (m : Master) (who : BitVec 8) (off len : Nat) : Prop :=
  s.resolve { unitRq m who true with addr := localAddr 3 off, len } = .ok (.reg off)

/-! ### Trellis -/

/-- The packet rows of the Trellis and their packets (Table TL-3). -/
def packetRows (l : Port) (q : BitVec 12) (p : Packet) (m : StepMsg) (k : KppPacket) (a : AuditMsg) :
    List (Instr × PacketBody) := [
  (.rdReq l q p, .rdReq p), (.wrReq l q p, .wrReq p), (.atReq l q p, .atReq p), (.bulkRd l q p, .bulkRd p),
  (.bulkWr l q p, .bulkWr p), (.rdRsp l q p, .rdRsp p), (.wrRsp l q p, .wrRsp p), (.atRsp l q p, .atRsp p),
  (.vote l q m, .vote m), (.decide l q m, .decide m), (.query l q m, .query m), (.answer l q m, .answer m),
  (.kppFwd l q k, .kppFwd k), (.kppRsp l q k, .kppRsp k), (.audit l q a, .audit a)]

/-- The next packet on a port that is UP. -/
def State.inOrder (s : State) (l : Port) (q : BitVec 12) : Prop := (s.link l).state = .up ∧ q = (s.link l).rxSeq

/-- The place that an arriving request reaches, as M9 for its partition and origin chip, with M9's domain on (R231, R362);
an atomic is one piece, and so is a write to the State Store here. -/
def State.arrives (s : State) (p : Packet) (rd wr : Bool) (k : Nat) : Prop :=
  p.dest = s.chip ∧ s.isOn 1 = true ∧ s.matrix.ecc = [] ∧
    (if rd && wr then s.resolve (arrivalRq p) = .ok (.mem k)
     else s.reaches { arrivalRq p with rd, wr } k ∧
       (wr = true → regionOf p.addr.toNat = 1 → 1 ≤ p.len.toNat ∧ p.addr.toNat % 64 + p.len.toNat ≤ 64))

/-- No request of this SX4 that still waits for its response stands in port l's replay buffer or queue (R270). -/
def State.holdsNoOwn (s : State) (l : Nat) : Prop :=
  ∀ b ∈ (s.link l).replay.map (·.body) ++ (s.link l).queued.map (·.body), ∀ tag, s.ownTag b = some tag →
    ∀ y ∈ s.remote, y.tag ≠ tag

/-- A packet stands on its way out at a port: queued there, or sent and not yet acknowledged. -/
def State.onItsWay (s : State) (l : Nat) (b : PacketBody) : Prop :=
  (∃ y ∈ (s.link l).queued, y.body = b) ∨ ∃ y ∈ (s.link l).replay, y.body = b

/-- The flits that a replay buffer would resend, by sequence number, in order (R259). -/
def replayFlits (l : List Sent) : List (BitVec 12) :=
  l.flatMap fun x => ((List.range x.body.flits).drop x.skip).map fun i => x.seq + BitVec.ofNat 12 i

/-- The response packet to a request of this SX4. -/
def replyPacket (p : Packet) (chip : BitVec 7) (data : List Byte) : Packet :=
  { p with dest := p.src, src := chip, error := false, data, len := BitVec.ofNat 16 data.length }

/-! ### Group commits and recovery -/

/-- The step of partition p that was open for epoch e is over with decision d: nothing of it is bound. -/
def StepOver (t : State) (p : Nat) (e : BitVec 48) (d : Decision) : Prop :=
  (t.step1 p).isOpen = false ∧ (t.step1 p).judged = none ∧ (t.step1 p).outcome = some (e, d) ∧
    ∀ b ∈ t.streams.batches, b.part.val ≠ p

/-- Every other chip of the group that has a route is sent a step message (R274, R276). -/
def ToOthers (s t : State) (group p : Nat) (e : BitVec 48) (d : Decision) (mk : StepMsg → PacketBody) : Prop :=
  ∀ c ∈ groupChips group, c ≠ s.chip.toNat → ∀ x, s.routePort (BitVec.ofNat 7 c) = some x →
    t.onItsWay x (mk (s.stepMsg p c e d))

/-! ### Partitions -/

/-- The masks of Table PG-1 whose bits are resources. -/
def resourceMasks : List Nat := [1, 2, 3, 4, 5, 6, 0xA, 0xB]

/-! ### Kwekoash Parameter Protocol -/

/-- The Keeper takes this mailbox request of a client that it knows, or has room for, and executes it at once (R304, R308,
R309, R325). -/
def Taken (s : State) (h : Held) : Prop :=
  h.req.transport = .mailbox ∧ h = s.holdOf h.cmd h.req ∧ s.transportServed .mailbox = true ∧ s.power.dev ≠ .rest ∧
    malformed h = false ∧ h.req.tgt.toNat = s.chip.toNat ∧ s.kpp.deferred = none ∧ s.kpp.waiting = [] ∧
    ((∃ c, s.client h.key = some c ∧ c.running = none ∧ ∀ x ∈ c.cache, x.txn ≠ h.req.txn) ∨
      (s.client h.key = none ∧ s.kpp.clients.length < Config.clients))

/-- The state in which a taken request is executed: it is counted, and its client, with an entry, has it running. -/
def State.executing (s : State) (h : Held) : State :=
  let t : State := if (s.client h.key).isSome then s
    else { s with kpp := { s.kpp with clients := s.kpp.clients ++ [{ key := h.key }] } }
  (t.mapClient h.key fun c => { c with running := some h.req.txn }).bump 0x7071 4

/-- Objects whose write stores a value of a range and does nothing else: index, subindex, least and largest value (Tables
KP-9, OD-5, TL-6). -/
def plainObjects : List (Nat × Nat × Nat × Nat) := [
  (0x1103, 2, 1, 3600), (0x1104, 2, 100, 1000000), (0x1105, 2, 1, 60000), (0x2006, 1, 0, 127), (0x2006, 2, 0, 7),
  (0x3300, 5, 10, 10000)]

/-- The mailbox holds the response of a request: command byte, segment code and payload (R302, Table KP-7). -/
def Answers (t : State) (h : Held) (cmd seg : Nat) (payload : List Byte) : Prop :=
  t.kpp.respValid = true ∧ t.kpp.rtxn = h.req.txn ∧
    t.kpp.mailboxResponse = [BitVec.ofNat 8 cmd, h.req.client, h.req.txn, t.chip.setWidth 8] ++
      natLe h.req.index.toNat 2 ++ [h.req.sub, BitVec.ofNat 8 (64 * seg + payload.length)] ++ payload

/-- The open transfer of the client of a request on the request's object. -/
def OpenOn (s : State) (h : Held) (t : Transfer) : Prop :=
  s.transfer h.key = some t ∧ t.index = h.req.index ∧ t.sub = h.req.sub

/-! ### Power, Rest, resets, boot -/

/-- Every byte in the spans of a domain's memories is zero in t, and no other byte differs from s (R366, Table PW-2). -/
def DomainZeroed (s t : State) (d : Nat) : Prop :=
  (∀ x ∈ domainSpans d, ∀ k, x.1 ≤ k → k < x.1 + x.2 → t.rd8 k = 0) ∧
    ∀ k, (∀ x ∈ domainSpans d, k < x.1 ∨ x.1 + x.2 ≤ k) → t.rd8 k = s.rd8 k

/-! ### Trace and debug -/

/-- A timestamp packet of state s: kind 1, source 63, epoch, phase and cycle (R398, Table TF-1). -/
def timestampOf (s : State) : List Byte :=
  [0x7F, 0] ++ natLe s.epoch.toNat 6 ++ natLe s.phase 4 ++ natLe s.cycle 4

end Sys2Proof.Machine
end

