-- ==== Sys2Proof/Certificates/Slice0/Obligations.lean ====
section
/-! DEFINITION. The statements for the provers. -/

open Sys2Proof Sys2Proof.Machine

/-! ### Steps of the block -/

/-- A step runs the command at the front of the queue on the state with the rest of the queue. With no command waiting
a step is one cycle, by the model's choice (log 1), and always completes: with trace off nothing changes but the cycle
count, and with trace on its pins nothing but that and what trace sends. -/
def Obligations.StepRunsFront : Prop :=
  (∀ (c : Instr) (rest : List Instr) (s : State),
    step { s with pending := c :: rest } = exec c { s with pending := rest }) ∧
  (∀ (s : State), s.pending = [] → ∃ t, step s = .next t ∧
    (s.obj 0x7800 2 = 0 → t = { s with cycle := s.cycle + 1, trace := t.trace, outputs := t.outputs }) ∧
    (s.traceOn = false → t = { s with cycle := s.cycle + 1 }))

/-! ### Danto: words -/

/-- Decoding an encoded instruction gives it back, for every instruction of a thread's program and every operand
(Table TD-5, Table TD-7, R92, R94). A word that decodes is the word of its instruction, so each instruction has one
word. -/
def Obligations.DantoDecodeEncode : Prop :=
  (∀ (c : Instr) (th : Thread) (w : Nat), dantoEncode c = some (th, w) → w < 2 ^ 64 ∧ dantoOf th w = some c) ∧
  (∀ (c : Instr) (th : Thread) (w : Nat), w < 2 ^ 64 → dantoOf th w = some c → dantoEncode c = some (th, w))

/-- A word is illegal exactly when it decodes to no instruction and its opcode is not privileged (R92). From a thread,
a privileged opcode raises 0x0303 and a word that R92 calls illegal 0x0301, each with the instruction in the record,
and the thread stops; the Keeper starts a thread in a FREE context with every register zero, stops one, and inspects
one without an effect (R84, R92, R94, Table TD-9). -/
def Obligations.PrivilegedAndIllegal : Prop :=
  (∀ (th : Thread) (w : Nat), illegalWord w = true ↔ dantoOf th w = none ∧ privilegedWord w = false) ∧
  (∀ (s : State) (th : Thread) (w pc : W64) (p : Part),
    let n := Thread.num th
    let c := s.context n
    let stops (x : Instr) (code : Nat) : Prop := ∃ t, exec x s = .next t ∧
      Raised s t code (partByte (s.contextPart n)) (n / 64) c.pc.toNat (s.threadId n) w.toNat ∧
      (t.context n).state = .faulted ∧ (t.context n).pc = c.pc ∧ (t.context n).regs = c.regs ∧ t.mem = s.mem
    (s.mayIssue th [] → (0x78 ≤ w.toNat / 2 ^ 56 ∧ w.toNat / 2 ^ 56 ≤ 0x7F) →
      stops (.privilegedOpcode th (.fromThread w)) 0x0303) ∧
    (s.mayIssue th [] → dantoOf th w.toNat = none → ¬(0x78 ≤ w.toNat / 2 ^ 56 ∧ w.toNat / 2 ^ 56 ≤ 0x7F) →
      stops (.illegalInstruction th w) 0x0301) ∧
    (c.state = .free → s.owns p.val 2 n = true → goodTarget pc → s.isOn (2 + 9 * th.bed.val) = true →
      ∃ t, exec (.privilegedOpcode th (.keeperStart p pc)) s = .next t ∧ (t.context n).state = .ready ∧
        (t.context n).pc = pc ∧ (t.context n).regs = [] ∧ (t.context n).mregs = [] ∧ t.mem = s.mem) ∧
    (∃ t, exec (.privilegedOpcode th .keeperStop) s = .next t ∧ (t.context n).state = .free) ∧
    exec (.privilegedOpcode th .keeperInspect) s = .next s)

/-! ### Danto: integer arithmetic -/

/-- Every two-register instruction completes with its result in d, and touches nothing else (Table TD-7, R84). Every
immediate instruction completes with its result in d, and touches nothing else; `LIH` writes the immediate's bits
[40:0] shifted left by 23 (Table TD-7, R84). -/
def Obligations.IntegerResults : Prop :=
  (∀ (s : State) (th : Thread) (d a b : Reg), s.mayIssue th [a, b] →
    ∀ e ∈ twoRegisterTable th d a b, ∃ t, exec e.1 s = .next t ∧ OnlyContext s t (Thread.num th) ∧
      (s.context (Thread.num th)).wrote (t.context (Thread.num th)) d
        (e.2 ((s.context (Thread.num th)).reg a) ((s.context (Thread.num th)).reg b))) ∧
  (∀ (s : State) (th : Thread) (d a : Reg) (i : Imm),
    (s.mayIssue th [a] → ∀ e ∈ immediateTable th d a i, ∃ t, exec e.1 s = .next t ∧ OnlyContext s t (Thread.num th) ∧
      (s.context (Thread.num th)).wrote (t.context (Thread.num th)) d
        (e.2 ((s.context (Thread.num th)).reg a) i.toInt)) ∧
    (s.mayIssue th [] → ∃ t, exec (.lih th d i) s = .next t ∧ OnlyContext s t (Thread.num th) ∧
      (s.context (Thread.num th)).wrote (t.context (Thread.num th)) d (BitVec.ofNat 64 (i.toNat * 2 ^ 23))))

/-- An instruction that reads a register whose result has not arrived does not issue its work: the thread goes to WAIT
with its registers and its program counter as they were (R82). A thread whose turn it is not issues nothing (R81). An
access that would be a thread's 17th keeps it in WAIT, and nothing is sent (R83). -/
def Obligations.WhenNothingIssues : Prop :=
  (∀ (s : State) (th : Thread) (d a b : Reg), s.issues th = true →
    (s.context (Thread.num th)).awaited [a, b] ≠ [] →
    ∀ e ∈ twoRegisterTable th d a b, ∃ t, exec e.1 s = .next t ∧
      (t.context (Thread.num th)).state = .wait ∧ (t.context (Thread.num th)).pc = (s.context (Thread.num th)).pc ∧
      (t.context (Thread.num th)).regs = (s.context (Thread.num th)).regs ∧
      t.mem = s.mem ∧ t.counters = s.counters ∧ t.matrix = s.matrix) ∧
  (∀ (s : State) (th : Thread) (d a b : Reg) (i : Imm), s.issues th = false →
    (∀ e ∈ twoRegisterTable th d a b, exec e.1 s = .next s) ∧
    ∀ e ∈ immediateTable th d a i, exec e.1 s = .next s) ∧
  (∀ (s : State) (th : Thread) (d a b : Reg) (i : Imm),
    ∀ e ∈ accessTable th d a b i (s.context (Thread.num th)),
      s.mayIssue th e.2.1 → 16 ≤ (s.context (Thread.num th)).outstanding.length →
      ∃ t, exec e.1 s = .next t ∧ t.matrix = s.matrix ∧ t.mem = s.mem ∧
        (t.context (Thread.num th)).state = .wait ∧ (t.context (Thread.num th)).wait = .room ∧
        (t.context (Thread.num th)).pc = (s.context (Thread.num th)).pc)

/-! ### Danto: loads, stores and atomics -/

/-- An access to a good address with room among the thread's 16 goes to its target port as the newest request of the
bed controller, and the thread goes on; nothing else changes, so no byte of memory (R82, R83, R90). -/
def Obligations.AccessesGoToTheMatrix : Prop :=
  ∀ (s : State) (th : Thread) (d a b : Reg) (i : Imm),
    ∀ e ∈ accessTable th d a b i (s.context (Thread.num th)),
      let addr := accessAddress s th a i
      let region := bits addr.toNat 52 48
      s.mayIssue th e.2.1 → (s.context (Thread.num th)).outstanding.length < 16 →
      addr.toNat < 2 ^ 61 → region < 24 → region ≠ 2 → addr.toNat % e.2.2.1 = 0 →
      (e.2.2.2.1 = .atomic d → region = 0 ∨ (4 ≤ region ∧ region < 8) ∨ 20 ≤ region) →
      ∃ t r o, exec e.1 s = .next t ∧
        t = { s with contexts := t.contexts, lastIssue := t.lastIssue, matrix := { s.matrix with
          requests := s.matrix.requests ++ [r], nextId := s.matrix.nextId + 1 } } ∧
        r.addr = addr ∧ r.len = e.2.2.1 ∧ r.op = e.2.2.2.2 ∧ r.origin = .thread th ∧ r.master.val = th.bed.val ∧
        r.tid = th.ctx.val ∧ r.part.val = s.contextPart (Thread.num th) % 8 ∧ r.qos = s.obj 0x3200 (0x42 + th.bed.val) ∧
        (r.held = false → r.arrived = s.cycle + s.sliceDelay th.bed.val r.port.target.val) ∧
        r.port = s.portOf th.bed.val addr.toNat ∧
        (t.context (Thread.num th)).outstanding.getLast? = some o ∧ o.id = r.id ∧ o.kind = e.2.2.2.1 ∧
        (t.context (Thread.num th)).outstanding.length = (s.context (Thread.num th)).outstanding.length + 1 ∧
        (t.context (Thread.num th)).pc = (s.context (Thread.num th)).pc + 8 ∧
        (t.context (Thread.num th)).regs = (s.context (Thread.num th)).regs ∧
        (t.context (Thread.num th)).state = (s.context (Thread.num th)).state ∧
        ∀ m, m ≠ Thread.num th → t.context m = s.context m

/-- An address with bits [63:61] set, in a reserved region, not a multiple of the access size, or for an atomic in a
region without atomics raises 0x0302 at issue: the thread stops in FAULTED and nothing is sent (R91, R105). A branch
taken or a jump to a target that is not a multiple of 8 or lies at or beyond 256 KiB raises 0x0302 and keeps the
program counter and the registers; a branch not taken never faults on its target (R95). A counter instruction that
names a counter of another partition, or a selector with bits [7:6] set, raises 0x0302; a `CWAIT` on another bed's
counter raises 0x0301; no counter changes (R86, Table TD-9). An `EREAD` of 3 or more, an `MGET` of 8 or more and an
`MCLR` of 256 or more are operands out of their range: 0x0301, and the thread stops (Table TD-9). -/
def Obligations.ThreadFaults : Prop :=
  (∀ (s : State) (th : Thread) (d a b : Reg) (i : Imm),
    ∀ e ∈ accessTable th d a b i (s.context (Thread.num th)),
      let addr := accessAddress s th a i
      let region := bits addr.toNat 52 48
      s.mayIssue th e.2.1 → (s.context (Thread.num th)).outstanding.length < 16 →
      (2 ^ 61 ≤ addr.toNat ∨ 24 ≤ region ∨ region = 2 ∨ addr.toNat % e.2.2.1 ≠ 0 ∨
        (e.2.2.2.1 = .atomic d ∧ ¬(region = 0 ∨ (4 ≤ region ∧ region < 8) ∨ 20 ≤ region))) →
      ∃ t w, exec e.1 s = .next t ∧ dantoEncode e.1 = some (th, w) ∧
        Raised s t 0x0302 (partByte (s.contextPart (Thread.num th))) (Thread.num th / 64)
          (s.context (Thread.num th)).pc.toNat (s.threadId (Thread.num th)) w ∧
        (t.context (Thread.num th)).state = .faulted ∧ (t.context (Thread.num th)).pc = (s.context (Thread.num th)).pc ∧
        (t.context (Thread.num th)).regs = (s.context (Thread.num th)).regs ∧
        t.matrix = s.matrix ∧ t.mem = s.mem) ∧
  (∀ (s : State) (th : Thread) (d a b : Reg) (i : Imm),
    let n := Thread.num th
    let c := s.context n
    let off : W64 := i.signExtend 64
    let stops (x : Instr) : Prop := ∃ t w, exec x s = .next t ∧ dantoEncode x = some (th, w) ∧
      Raised s t 0x0302 (partByte (s.contextPart n)) (n / 64) c.pc.toNat (s.threadId n) w ∧
      (t.context n).state = .faulted ∧ (t.context n).pc = c.pc ∧ (t.context n).regs = c.regs ∧ t.mem = s.mem
    (s.mayIssue th [a, b] → ¬ goodTarget (c.pc + off) →
      ∀ e ∈ branchTable th a b i, e.2 (c.reg a) (c.reg b) → stops e.1) ∧
    (s.mayIssue th [a, b] → ∀ e ∈ branchTable th a b i, ¬ e.2 (c.reg a) (c.reg b) →
      ∃ t, exec e.1 s = .next t ∧ OnlyContext s t n ∧ t.context n = { c with pc := c.pc + 8 }) ∧
    (s.mayIssue th [] → ¬ goodTarget (c.pc + off) → stops (.jal th d i)) ∧
    (s.mayIssue th [a] → ¬ goodTarget (c.reg a + off) → stops (.jalr th d a i))) ∧
  (∀ (s : State) (th : Thread) (d a b : Reg) (i : Imm),
    let n := Thread.num th
    let c := s.context n
    let sel := (c.reg a + i.signExtend 64).toNat % 1024
    let k := sel / 256 * 64 + sel % 64
    let stops (x : Instr) (code : Nat) : Prop := ∃ t w, exec x s = .next t ∧ dantoEncode x = some (th, w) ∧
      Raised s t code (partByte (s.contextPart n)) (n / 64) c.pc.toNat (s.threadId n) w ∧
      (t.context n).state = .faulted ∧ (t.context n).regs = c.regs ∧ t.counters = s.counters
    ((sel / 64 % 4 ≠ 0 ∨ s.owns (s.contextPart n) 2 k = false) →
      (s.mayIssue th [a, b] → stops (.cinc th a b i) 0x0302 ∧ stops (.cwait th a b i) 0x0302) ∧
      (s.mayIssue th [a] → stops (.cread th d a i) 0x0302)) ∧
    (sel / 64 % 4 = 0 → s.owns (s.contextPart n) 2 k = true → sel / 256 ≠ th.bed.val → s.mayIssue th [a, b] →
      stops (.cwait th a b i) 0x0301)) ∧
  (∀ (s : State) (th : Thread) (d : Reg) (i : Imm),
    let n := Thread.num th
    let c := s.context n
    let stops (x : Instr) : Prop := ∃ t w, exec x s = .next t ∧ dantoEncode x = some (th, w) ∧
      Raised s t 0x0301 (partByte (s.contextPart n)) (n / 64) c.pc.toNat (s.threadId n) w ∧
      (t.context n).state = .faulted ∧ (t.context n).regs = c.regs ∧ (t.context n).mregs = c.mregs
    s.mayIssue th [] →
      (3 ≤ i.toNat → stops (.eread th d i)) ∧ (8 ≤ i.toNat → stops (.mget th d i)) ∧
      (256 ≤ i.toNat → stops (.mclr th i)))

/-- The response of a thread's oldest access completes it: a load or atomic writes its register, zero- or sign-
extended (Table TD-7), a store writes none; an error response puts the thread in FAULTED and writes no register (R98);
one to a store with 0x0504 raises that fault (R59, R98), and no other raises a second one (log 54). -/
def Obligations.ResponsesComplete : Prop :=
  ∀ (s : State) (th : Thread) (r : Response) (o : Outstanding) (rest : List Outstanding),
    s.matrix.responses.find? (fun x => decide (x.id = r.id) && decide (x.origin = .thread th)) = some r →
    s.isOn (2 + 9 * th.bed.val) = true →
    (s.context (Thread.num th)).outstanding = o :: rest → o.id = r.id →
    (s.context (Thread.num th)).state = .ready ∨ (s.context (Thread.num th)).state = .wait →
    ∃ t, exec (.accessResponse th r.id) s = .next t ∧ t.mem = s.mem ∧
      (∀ x ∈ t.matrix.responses, x.id ≠ r.id) ∧
      (∀ x ∈ (t.context (Thread.num th)).outstanding, x.id ≠ r.id) ∧
      (t.context (Thread.num th)).pc = (s.context (Thread.num th)).pc ∧
      (∀ l, r.reply = .data l →
        (t.context (Thread.num th)).state = (s.context (Thread.num th)).state ∧
        ∀ x, (t.context (Thread.num th)).reg x =
          match o.kind with
          | .load d sgn => if x = d ∧ x ≠ 0 then
              (if sgn then (BitVec.ofNat (8 * o.size) (leNat l)).signExtend 64 else BitVec.ofNat 64 (leNat l))
              else (s.context (Thread.num th)).reg x
          | .store => (s.context (Thread.num th)).reg x
          | .atomic d => if x = d ∧ x ≠ 0 then BitVec.ofNat 64 (leNat l) else (s.context (Thread.num th)).reg x) ∧
      (∀ code, r.reply = .error code →
        (t.context (Thread.num th)).state = .faulted ∧
        (t.context (Thread.num th)).regs = (s.context (Thread.num th)).regs ∧
        (o.kind = .store → code = 0x0504 → Raised s t 0x0504 (partByte (s.contextPart (Thread.num th)))
          (Thread.num th / 64) o.addr.toNat o.pc.toNat o.word.toNat) ∧
        (o.kind ≠ .store ∨ code ≠ 0x0504 → s.traceOn = false → t.faults = s.faults))

/-! ### Danto: branches -/

/-- A branch taken goes to PC + i, one not taken to PC + 8 whatever its target; `JAL` and `JALR` write PC + 8 to d and
jump; nothing else changes (Table TD-7, R95). -/
def Obligations.BranchesAndJumps : Prop :=
  ∀ (s : State) (th : Thread) (d a b : Reg) (i : Imm),
    let c := s.context (Thread.num th)
    let off : W64 := i.signExtend 64
    (s.mayIssue th [a, b] → ∀ e ∈ branchTable th a b i,
      (e.2 (c.reg a) (c.reg b) → goodTarget (c.pc + off) →
        ∃ t, exec e.1 s = .next t ∧ OnlyContext s t (Thread.num th) ∧
          t.context (Thread.num th) = { c with pc := c.pc + off }) ∧
      (¬ e.2 (c.reg a) (c.reg b) →
        ∃ t, exec e.1 s = .next t ∧ OnlyContext s t (Thread.num th) ∧
          t.context (Thread.num th) = { c with pc := c.pc + 8 })) ∧
    (s.mayIssue th [] → goodTarget (c.pc + off) →
      ∃ t, exec (.jal th d i) s = .next t ∧ OnlyContext s t (Thread.num th) ∧
        (t.context (Thread.num th)).pc = c.pc + off ∧
        ∀ r, (t.context (Thread.num th)).reg r = if r = 0 then 0 else if r = d then c.pc + 8 else c.reg r) ∧
    (s.mayIssue th [a] → goodTarget (c.reg a + off) →
      ∃ t, exec (.jalr th d a i) s = .next t ∧ OnlyContext s t (Thread.num th) ∧
        (t.context (Thread.num th)).pc = c.reg a + off ∧
        ∀ r, (t.context (Thread.num th)).reg r = if r = 0 then 0 else if r = d then c.pc + 8 else c.reg r)

/-! ### Danto: counters, time, summaries, thread control -/

/-- A counter of the thread's own partition is incremented modulo 2^32, read zero-extended, or found reached, and the
thread goes on; a counter that has not reached its value leaves the thread in WAIT past the instruction (R86 to R88,
Table TD-7). `EWAIT` on a time that has been reached goes on, on one to come it waits; `EREAD` writes the epoch, the
phase or the cycle count; `MGET` writes a summary register and `MCLR` clears the named ones (Table TD-7). -/
def Obligations.CountersTimeAndSummaries : Prop :=
  (∀ (s : State) (th : Thread) (d a b : Reg) (i : Imm),
    let n := Thread.num th
    let c := s.context n
    let sel := (c.reg a + i.signExtend 64).toNat % 1024
    let k := sel / 256 * 64 + sel % 64
    sel / 64 % 4 = 0 → s.owns (s.contextPart n) 2 k = true →
    (s.mayIssue th [a, b] →
      (∃ t, exec (.cinc th a b i) s = .next t ∧
        t = { s with contexts := t.contexts, lastIssue := t.lastIssue, counters := t.counters, added := t.added } ∧
        (t.counter k).toNat = ((s.counter k).toNat + (c.reg b).toNat) % 2 ^ 32 ∧
        (∀ j, j ≠ k → t.counter j = s.counter j) ∧ t.context n = { c with pc := c.pc + 8 }) ∧
      (sel / 256 = th.bed.val →
        (((s.counter k).toNat + 2 ^ 32 - (c.reg b).toNat % 2 ^ 32) % 2 ^ 32 < 2 ^ 31 →
          ∃ t, exec (.cwait th a b i) s = .next t ∧ OnlyContext s t n ∧ t.context n = { c with pc := c.pc + 8 }) ∧
        (2 ^ 31 ≤ ((s.counter k).toNat + 2 ^ 32 - (c.reg b).toNat % 2 ^ 32) % 2 ^ 32 →
          ∃ t, exec (.cwait th a b i) s = .next t ∧ t.mem = s.mem ∧ t.counters = s.counters ∧
            (t.context n).state = .wait ∧ (t.context n).wait = .counter sel ((c.reg b).setWidth 32) ∧
            (t.context n).pc = c.pc + 8))) ∧
    (s.mayIssue th [a] →
      ∃ t, exec (.cread th d a i) s = .next t ∧ OnlyContext s t n ∧
        c.wrote (t.context n) d (BitVec.ofNat 64 (s.counter k).toNat))) ∧
  (∀ (s : State) (th : Thread) (d a b : Reg) (i : Imm),
    let n := Thread.num th
    let c := s.context n
    (s.mayIssue th [a, b] → s.tracker.running = true →
      let e := (c.reg a).toNat % 2 ^ 48
      let ph := (c.reg b).toNat % 2 ^ 20
      let past := e < s.epoch.toNat ∨ (e = s.epoch.toNat ∧ ph ≤ s.phase)
      (past → ∃ t, exec (.ewait th a b) s = .next t ∧ OnlyContext s t n ∧ t.context n = { c with pc := c.pc + 8 }) ∧
      (¬ past → ∃ t, exec (.ewait th a b) s = .next t ∧ t.mem = s.mem ∧ (t.context n).state = .wait ∧
        (t.context n).wait = .epoch (BitVec.ofNat 48 e) (BitVec.ofNat 20 ph) ∧ (t.context n).pc = c.pc + 8)) ∧
    (s.mayIssue th [] →
      (i.toNat < 3 → ∃ t, exec (.eread th d i) s = .next t ∧ OnlyContext s t n ∧
        c.wrote (t.context n) d (BitVec.ofNat 64
          (if i = 0 then s.epoch.toNat else if i = 1 then s.phase else s.cycle))) ∧
      (i.toNat < 8 → ∃ t, exec (.mget th d i) s = .next t ∧ OnlyContext s t n ∧
        c.wrote (t.context n) d (tget c.mregs i.toNat 0)) ∧
      (i.toNat < 256 → ∃ t, exec (.mclr th i) s = .next t ∧ OnlyContext s t n ∧
        (t.context n).pc = c.pc + 8 ∧ (t.context n).regs = c.regs ∧
        ∀ j, tget (t.context n).mregs j 0 = if i.toNat.testBit j then 0 else tget c.mregs j 0)))

/-- `SPAWN` starts a thread in the lowest FREE context of the bed that the caller's partition owns, with s4 = b, every
other register zero, and its ID in d; with none FREE it raises 0x0304, writes all ones and goes on (R100, R84).
`YIELD` only gives up the turn; `PARK` records its counter and waits; `HALT` frees the context; `TID` writes partition
and thread ID; a fence with nothing to wait for goes on, one with outstanding accesses waits (R101, R102, Table TD-7).
A thread whose wait is over becomes READY and keeps its registers; one whose condition does not hold stays as it is
(Table TD-1, R88). -/
def Obligations.ThreadControl : Prop :=
  (∀ (s : State) (th : Thread) (d a b : Reg) (i : Imm),
    let n := Thread.num th
    let c := s.context n
    let pc := c.reg a + i.signExtend 64
    let free (m : Nat) : Prop := 64 * th.bed.val ≤ m ∧ m < 64 * th.bed.val + 64 ∧ (s.context m).state = .free ∧
      s.owns (s.contextPart n) 2 m = true
    s.mayIssue th [a, b] → goodTarget pc →
      (∀ m, free m → (∀ j, free j → m ≤ j) → ∃ t, exec (.spawn th d a b i) s = .next t ∧ t.mem = s.mem ∧
        c.wrote (t.context n) d (BitVec.ofNat 64 (s.chip.toNat * 256 + m)) ∧
        (t.context m).state = .ready ∧ (t.context m).pc = pc ∧ (t.context m).mregs = [] ∧
        (∀ r, (t.context m).reg r = if r = 4 then c.reg b else 0) ∧
        ∀ j, j ≠ n → j ≠ m → t.context j = s.context j) ∧
      ((∀ m, ¬ free m) → ∃ t w, exec (.spawn th d a b i) s = .next t ∧
        dantoEncode (.spawn th d a b i) = some (th, w) ∧
        Raised s t 0x0304 (partByte (s.contextPart n)) (n / 64) c.pc.toNat (s.threadId n) w ∧
        c.wrote (t.context n) d (BitVec.allOnes 64) ∧ ∀ j, j ≠ n → t.context j = s.context j)) ∧
  (∀ (s : State) (th : Thread) (d : Reg), s.mayIssue th [] →
    let n := Thread.num th
    let c := s.context n
    (∃ t, exec (.yield th) s = .next t ∧ OnlyContext s t n ∧ t.context n = { c with pc := c.pc + 8 }) ∧
    (∃ t, exec (.park th) s = .next t ∧ t.mem = s.mem ∧ (t.context n).state = .wait ∧
      (t.context n).wait = .park (s.counter n) ∧ (t.context n).pc = c.pc + 8 ∧ (t.context n).regs = c.regs) ∧
    (∃ t, exec (.halt th) s = .next t ∧ t.mem = s.mem ∧ t.context n = {} ∧ ∀ m, m ≠ n → t.context m = s.context m) ∧
    (∃ t, exec (.tid th d) s = .next t ∧ OnlyContext s t n ∧
      c.wrote (t.context n) d (BitVec.ofNat 64 (s.contextPart n * 2 ^ 16 + s.chip.toNat * 2 ^ 8 + n))) ∧
    ((∀ o ∈ c.outstanding, o.isLocal = false) →
      ∃ t, exec (.fenceL th) s = .next t ∧ OnlyContext s t n ∧ t.context n = { c with pc := c.pc + 8 }) ∧
    ((∃ o ∈ c.outstanding, o.isLocal = true) → ∃ t, exec (.fenceL th) s = .next t ∧
      (t.context n).state = .wait ∧ (t.context n).wait = .fenceLocal ∧ (t.context n).pc = c.pc + 8) ∧
    (c.outstanding = [] →
      ∃ t, exec (.fenceG th) s = .next t ∧ OnlyContext s t n ∧ t.context n = { c with pc := c.pc + 8 }) ∧
    (c.outstanding ≠ [] → ∃ t, exec (.fenceG th) s = .next t ∧
      (t.context n).state = .wait ∧ (t.context n).wait = .fenceGlobal ∧ (t.context n).pc = c.pc + 8)) ∧
  (∀ (s : State) (th : Thread), s.threadsIssue = true → (s.context (Thread.num th)).state = .wait →
    (s.waitOver (Thread.num th) (s.context (Thread.num th)) = true →
      ∃ t, exec (.waitEnded th) s = .next t ∧ t.mem = s.mem ∧ t.counters = s.counters ∧
        (t.context (Thread.num th)).state = .ready ∧ (t.context (Thread.num th)).wait = .none ∧
        (t.context (Thread.num th)).pc = (s.context (Thread.num th)).pc ∧
        (t.context (Thread.num th)).regs = (s.context (Thread.num th)).regs) ∧
    (∀ sel v, (s.context (Thread.num th)).wait = .counter sel v →
      2 ^ 31 ≤ ((s.counter (selCounter sel)).toNat + 2 ^ 32 - v.toNat) % 2 ^ 32 →
      exec (.waitEnded th) s = .next s))

/-! ### Queues -/

/-- With credit for every entry and no scrub over the ring, a push copies the descriptor into the ring at `TAIL`, moves
`TAIL`, writes 0 to d and goes on (R99, R107). A push without credit pushes nothing, counts in `REFUSED`, raises 0x0401, writes 1 to d, and the
thread goes on; one to a queue of another partition raises 0x0403 and stops the thread (R99, R127). -/
def Obligations.QueuePushes : Prop :=
  (∀ (s : State) (th : Thread) (d a b : Reg) (i : Imm), ∀ e ∈ pushTable th d a b i,
    let n := Thread.num th
    let c := s.context n
    let q := (c.reg b).toNat % 32
    let src := (c.reg a + i.signExtend 64).toNat
    let tail := (s.queue q).tail
    s.mayIssue th (pushSources a b e.2.2) → s.qPart q = s.contextPart n → src % 64 = 0 →
    src + pushBytes e.2.1 e.2.2 ≤ 256 * 1024 → s.qDoorbell q = false → e.2.1 ≤ s.credits q →
    s.ringOpen q tail e.2.1 →
    ∃ t, exec e.1 s = .next t ∧ c.wrote (t.context n) d 0 ∧
      (t.queue q).tail = tail + BitVec.ofNat 32 e.2.1 ∧
      (t.queue q).rel = (if s.qHeld q then (s.queue q).rel else tail + BitVec.ofNat 32 e.2.1) ∧
      t.rdBytes (s.entryKey q tail.toNat) 64 = s.rdBytes (memKey (20 + th.bed.val) src) 64 ∧
      (e.2.1 = 2 → t.rdBytes (s.entryKey q (tail + 1).toNat) 64 =
        if e.2.2 then pushedRegisters c else s.rdBytes (memKey (20 + th.bed.val) (src + 64)) 64) ∧
      (∀ k, (k < s.entryKey q tail.toNat ∨ s.entryKey q tail.toNat + 64 ≤ k) →
        (e.2.1 = 1 ∨ k < s.entryKey q (tail + 1).toNat ∨ s.entryKey q (tail + 1).toNat + 64 ≤ k) →
        t.rd8 k = s.rd8 k) ∧
      ∀ x, x ≠ q → t.queue x = s.queue x) ∧
  (∀ (s : State) (th : Thread) (d a b : Reg) (i : Imm), ∀ e ∈ pushTable th d a b i,
    let n := Thread.num th
    let c := s.context n
    let q := (c.reg b).toNat % 32
    let src := (c.reg a + i.signExtend 64).toNat
    s.mayIssue th (pushSources a b e.2.2) →
    (s.qPart q = s.contextPart n → src % 64 = 0 → src + pushBytes e.2.1 e.2.2 ≤ 256 * 1024 →
      (s.qDoorbell q = true ∨ s.credits q < e.2.1) →
      ∃ t, exec e.1 s = .next t ∧ c.wrote (t.context n) d 1 ∧ (t.queue q).tail = (s.queue q).tail ∧
        (t.queue q).refused = (s.queue q).refused + 1 ∧ t.mem = s.mem ∧
        t.obj 0x7014 1 = (s.obj 0x7014 1 + 1) % 2 ^ 32) ∧
    (s.qPart q ≠ s.contextPart n →
      ∃ t, exec e.1 s = .next t ∧ (t.context n).state = .faulted ∧ (t.context n).regs = c.regs ∧
        t.queues = s.queues ∧ t.mem = s.mem ∧ t.obj 0x7014 3 = (s.obj 0x7014 3 + 1) % 2 ^ 32))

/-- `QCRED` writes the credits of a queue that threads push, 0 for a doorbell queue; `QWAIT` goes on once the credits
are at least i, else it waits (Table TD-7, R110, R111). Credits are the entries of the ring that are not taken, for a
queue whose `TAIL` is at most its depth ahead of `HEAD`; a queue without a ring base has none (R106, R110). -/
def Obligations.QueueCredits : Prop :=
  (∀ (s : State) (th : Thread) (d a : Reg) (i : Imm),
    let n := Thread.num th
    let c := s.context n
    let q := (c.reg a).toNat % 32
    let held := if s.qDoorbell q then 0 else s.credits q
    s.mayIssue th [a] → s.qPart q = s.contextPart n →
    (∃ t, exec (.qcred th d a) s = .next t ∧ OnlyContext s t n ∧ c.wrote (t.context n) d (BitVec.ofNat 64 held)) ∧
    (1 ≤ i.toInt → i.toInt ≤ s.qDepth q →
      (i.toInt ≤ held → ∃ t, exec (.qwait th a i) s = .next t ∧ OnlyContext s t n ∧
        t.context n = { c with pc := c.pc + 8 }) ∧
      ((held : Int) < i.toInt → ∃ t, exec (.qwait th a i) s = .next t ∧ t.queues = s.queues ∧
        (t.context n).state = .wait ∧ (t.context n).pc = c.pc + 8 ∧ (t.context n).regs = c.regs))) ∧
  (∀ (s : State) (q : Nat) (n : Nat), n ≤ s.qDepth q → (s.queue q).tail = (s.queue q).head + BitVec.ofNat 32 n →
    s.credits q = if s.qRing q = 0 then 0 else s.qDepth q - n)

/-- A doorbell value within the credits moves `TAIL`, and `REL` outside held mode; one beyond them is refused with
0x0401 and counted; one of `TAIL` itself has no effect; one behind `TAIL` and a narrower write that touches `TAIL` are
stale and counted; a write elsewhere in the block changes nothing; a doorbell to a queue that threads push gets 0x0802
(R111 to R113, R116, Table QD-4). While D48 is off or `PERST_N` low no host write reaches the queue (R338, R362). -/
def Obligations.Doorbells : Prop :=
  ∀ (s : State) (q : QueueId) (off : Fin 64) (width : Fin 9) (v : W64),
    let k := s.queue q
    let n := ((v.setWidth 32 : W32) - k.tail).toNat
    (s.hostReaches = false → exec (.doorbell q off width v) s = .next s) ∧
    (s.hostReaches = true →
    (off = 0 → 4 ≤ width.val → s.qDoorbell q = true →
      (1 ≤ n → n ≤ s.credits q → n < 2 ^ 31 → ∃ t, exec (.doorbell q off width v) s = .next t ∧
        t = { s with queues := t.queues } ∧ (t.queue q).tail = v.setWidth 32 ∧
        (t.queue q).rel = (if s.qHeld q then k.rel else v.setWidth 32) ∧ (t.queue q).head = k.head ∧
        ∀ x, x ≠ q.val → t.queue x = s.queue x) ∧
      (n = 0 → exec (.doorbell q off width v) s = .next s) ∧
      (2 ^ 31 ≤ n → exec (.doorbell q off width v) s = .next (s.setQueue q { k with stale := k.stale + 1 })) ∧
      (s.credits q < n → n < 2 ^ 31 → ∃ t, exec (.doorbell q off width v) s = .next t ∧
        t.queue q = { k with refused := k.refused + 1 } ∧ t.mem = s.mem ∧
        t.obj 0x7014 1 = (s.obj 0x7014 1 + 1) % 2 ^ 32)) ∧
    (off = 0 → 4 ≤ width.val → s.qDoorbell q = false → ∃ t, exec (.doorbell q off width v) s = .next t ∧
      t.queues = s.queues ∧ t.matrix.lastError.code = 0x0802) ∧
    (off.val < 4 → 1 ≤ width.val → (off.val = 0 → width.val < 4) →
      exec (.doorbell q off width v) s = .next (s.setQueue q { k with stale := k.stale + 1 })) ∧
    (4 ≤ off.val → exec (.doorbell q off width v) s = .next s))

/-- Setting held mode freezes `REL`, clearing it takes `REL` to `TAIL` (R117). A configuration write in range to an
idle queue with the lock clear stores the object and zeroes every index and counter of that queue; in use it is
refused with abort 0x09, out of range with 0x06, under the partition lock with 0x07, and nothing but the answer
changes (R108, R307). -/
def Obligations.QueueConfiguration : Prop :=
  (∀ (s : State) (q : QueueId), s.keeperServes = true →
    (∃ t, exec (.heldModeSet q) s = .next t ∧ t.qHeld q = true ∧ t.queues = s.queues ∧ t.mem = s.mem) ∧
    (∃ t, exec (.heldModeClear q) s = .next t ∧ t.qHeld q = false ∧
      t.queue q = { s.queue q with rel := (s.queue q).tail } ∧ t.mem = s.mem ∧
      ∀ x, x ≠ q.val → t.queue x = s.queue x)) ∧
  (∀ (s : State) (o : QueueObject) (q : QueueId) (v : W64), s.keeperServes = true →
    let value := match o with
      | .binding => v.toNat % 2 ^ 32
      | _ => v.toNat
    let index := match o with
      | .binding => 0x3100
      | .ringBase => 0x3101
      | .completionBase => 0x3102
    let refused (code : BitVec 8) : Prop :=
      exec (.queueConfigWrite o q v) s = .next { s with kpp := { s.kpp with result := code } }
    (s.locked = true → refused 0x07) ∧
    (s.locked = false → s.queueValueOk o q value = false → refused 0x06) ∧
    (s.locked = false → s.queueValueOk o q value = true → s.queueInUse q = true → refused 0x09) ∧
    (s.locked = false → s.queueValueOk o q value = true → s.queueInUse q = false →
      ∃ t, exec (.queueConfigWrite o q v) s = .next t ∧ t.kpp.result = 0 ∧ t.queue q = {} ∧ t.mem = s.mem ∧
        t.obj index (q + 1) = (if o = .binding then value &&& 0xFD7F0000 else value) ∧
        ∀ x, x ≠ q.val → t.queue x = s.queue x))

/-! ### Descriptors -/

/-- A descriptor command whose queue has nothing to go on with and may dispatch nothing, or whose front descriptor is
another command's, changes nothing (R114). A front descriptor whose consumer does not accept its opcode (Table QD-7), or one with a reserved
header or body bit set, is dispatched and refused with 0x0402: the fault names the queue, its index and the first
failing byte, and the descriptor ends with status 2 (R122, R127). On a doorbell queue a front descriptor that names
another partition is refused with 0x0403 (R122). -/
def Obligations.DescriptorRefusals : Prop :=
  (∀ (s : State) (q : QueueId), ∀ e ∈ descriptorTable q, s.answeredRun q = none →
    (s.front q = none ∨ ∃ d, s.front q = some d ∧ e.2 d = false) → exec e.1 s = .next s) ∧
  (∀ (s : State) (q : QueueId) (d : Desc) (x : Nat), ∀ e ∈ descriptorTable q,
    s.front q = some d → s.ringOpen q d.index 1 → e.2 d = true →
    (s.qDoorbell q = false ∨ d.f 2 1 % 8 = s.qPart q) →
    (s.qCons q ∉ consumersOf d.opc ∧ x = 0 ∨
      s.qCons q ∈ consumersOf d.opc ∧ d.ext = longOpcode d.opc ∧ d.ext = d.two ∧ d.reserved = some x) →
    ∃ t, exec e.1 s = .next t ∧ EndsWith t q 2 0x0402 0 ∧ t.mem = s.mem ∧
      t.obj 0x7014 2 = (s.obj 0x7014 2 + 1) % 2 ^ 32) ∧
  (∀ (s : State) (q : QueueId) (d : Desc), ∀ e ∈ descriptorTable q,
    s.front q = some d → s.ringOpen q d.index 1 → e.2 d = true → s.qDoorbell q = true → d.f 2 1 % 8 ≠ s.qPart q →
    ∃ t, exec e.1 s = .next t ∧ EndsWith t q 2 0x0403 0 ∧ t.mem = s.mem ∧
      t.obj 0x7014 3 = (s.obj 0x7014 3 + 1) % 2 ^ 32)

/-- `NOP`, `FENCE` and `SIGNAL` are dispatched and end with status 0; a `SIGNAL` adds to its counter in the cycle of
dispatch, and a `FENCE` is dispatched only once every earlier descriptor of its queue has ended (R126). -/
def Obligations.FenceSignalNop : Prop :=
  ∀ (s : State) (q : QueueId) (d : Desc),
    (Accepted s q d none → d.opc = 0x7F →
      ∃ t, exec (.nop q) s = .next t ∧ Dispatched s t q d ∧ EndsWith t q 0 0 0 ∧ t.mem = s.mem ∧
        t.counters = s.counters) ∧
    (Accepted s q d none → d.opc = 0x70 → (s.queue q).head = (s.queue q).disp →
      ∃ t, exec (.fence q) s = .next t ∧ Dispatched s t q d ∧ EndsWith t q 0 0 0 ∧ t.mem = s.mem) ∧
    ((s.queue q).head ≠ (s.queue q).disp → exec (.fence q) s = .next s) ∧
    (Accepted s q d none → d.opc = 0x71 → d.f 16 2 / 64 % 4 = 0 → d.f 16 2 < 1024 →
      s.owns (s.qPart q) 2 (d.f 16 2 / 256 * 64 + d.f 16 2 % 64) = true →
      ∃ t, exec (.signal q) s = .next t ∧ Dispatched s t q d ∧ EndsWith t q 0 0 0 ∧ t.mem = s.mem ∧
        (t.counter (d.f 16 2 / 256 * 64 + d.f 16 2 % 64)).toNat =
          ((s.counter (d.f 16 2 / 256 * 64 + d.f 16 2 % 64)).toNat + d.f 20 4) % 2 ^ 32 ∧
        ∀ c, c ≠ d.f 16 2 / 256 * 64 + d.f 16 2 % 64 → t.counter c = s.counter c)

/-- A descriptor whose work is over ends: `HEAD` passes it, its completion record is written, its done counter is
incremented, and the queue runs nothing (R123, R124, Table QD-6). A descriptor that has ended gives its function table
image to the slot it names, and writes its summaries unless the thread is FREE or FAULTED (R85, R204). -/
def Obligations.DescriptorsEnd : Prop :=
  (∀ (s : State) (q : QueueId) (r : Run), (s.queue q).run = some r → r.phase = .finished →
    r.flags.toNat.testBit 1 = false → r.summaries = none → r.table = none →
    ∃ t, exec (.descriptorEnd q) s = .next t ∧ (t.queue q).run = none ∧
      (t.queue q).head = (s.queue q).head + (if r.two then 2 else 1) ∧ (t.queue q).tail = (s.queue q).tail ∧
      (t.queue q).disp = (s.queue q).disp ∧ (∀ x, x ≠ q.val → t.queue x = s.queue x) ∧
      (s.qCompletion q = 0 → t.mem = s.mem) ∧
      (s.qCompletion q ≠ 0 →
        s.ringDenied q ((s.qCompletion q + 16 * (r.index.toNat % s.qDepth q)) % 2 ^ 53) 16 true = none →
        t.rdBytes ((s.qCompletion q + 16 * (r.index.toNat % s.qDepth q)) % 2 ^ 53) 16 = natLe r.index.toNat 4 ++
          [r.opc, r.ending.status] ++ natLe r.ending.code.toNat 2 ++ natLe r.tag.toNat 2 ++
          [BitVec.ofNat 8 q, partByte (s.qPart q)] ++ natLe r.ending.detail.toNat 4) ∧
      ∀ c, (t.counter c).toNat = ((s.counter c).toNat +
        (if r.donec.toNat.testBit 15 && r.doneOk && decide (c = selCounter r.donec.toNat) then 1 else 0)) % 2 ^ 32) ∧
  (∀ (s : State) (q : QueueId) (r : Run), (s.queue q).run = some r → r.phase = .finished →
    r.flags.toNat.testBit 1 = false →
    (∀ i img, r.table = some (i, img) → r.summaries = none →
      ∃ t, exec (.descriptorEnd q) s = .next t ∧ tget t.tables i [] = img ∧
        ∀ j, j ≠ i → tget t.tables j [] = tget s.tables j []) ∧
    (∀ n first a b c d, r.summaries = some (n, first, [a, b, c, d]) → r.table = none →
      ∃ t, exec (.descriptorEnd q) s = .next t ∧
        ((s.context n).state = .free ∨ (s.context n).state = .faulted → t.context n = s.context n) ∧
        ((s.context n).state = .ready ∨ (s.context n).state = .wait →
          (∀ j, tget (t.context n).mregs j 0 =
            if j = first % 8 then a else if j = (first + 1) % 8 then b else if j = (first + 2) % 8 then c
            else if j = (first + 3) % 8 then d else tget (s.context n).mregs j 0) ∧
          (t.context n).regs = (s.context n).regs)))

/-! ### Movers, caches, engines -/

/-- A `COPY` of one 64-byte row by the State Mover reads the source and writes the destination; a `FILL` within one
64-byte line writes its pattern; each ends with status 0 and its bytes in `DETAIL`, and no other byte changes (Table
QD-10, R126; the accesses in line pieces are log 12). A `CACHE_FILL` of 64 bytes puts the source into the bed's
operand cache; a `CACHE_EVICT` of 64 bytes without a destination zeroes them; a `TABLE_LOAD` of a good image holds it
for the slot; each ends with status 0 (R190, R191, R203, R204). -/
def Obligations.MoversAndCaches : Prop :=
  (∀ (s : State) (q : QueueId) (d : Desc) (k1 k2 : Nat), s.qCons q = 4 → s.matrix.ecc = [] →
    let rq (a len : Nat) (wr : Bool) : Rq := { unitRq 8 (partByte (s.qPart q)) wr with addr := a, len }
    (Accepted s q d (copyRanges d) → d.opc = 0x40 → d.f 32 4 = 64 → d.f 44 4 = 1 →
      (s.startRun q d).resolve (rq (d.f 16 8) 64 false) = .ok (.mem k1) →
      (s.startRun q d).resolve (rq (d.f 24 8) 64 true) = .ok (.mem k2) →
      ∃ t, exec (.copy q) s = .next t ∧ Dispatched s t q d ∧ EndsWith t q 0 0 64 ∧
        t.rdBytes k2 64 = s.rdBytes k1 64 ∧ ∀ k, (k < k2 ∨ k2 + 64 ≤ k) → t.rd8 k = s.rd8 k) ∧
    (Accepted s q d (fillRanges d) → d.opc = 0x41 → 8 ≤ d.f 32 4 → d.f 16 8 % 64 + d.f 32 4 ≤ 64 →
      (s.startRun q d).resolve (rq (d.f 16 8) (d.f 32 4) true) = .ok (.mem k2) →
      ∃ t, exec (.fill q) s = .next t ∧ Dispatched s t q d ∧ EndsWith t q 0 0 (d.f 32 4) ∧
        (∀ i, i < d.f 32 4 → t.rd8 (k2 + i) = BitVec.ofNat 8 (d.f (24 + i % 8) 1)) ∧
        ∀ k, (k < k2 ∨ k2 + d.f 32 4 ≤ k) → t.rd8 k = s.rd8 k)) ∧
  (∀ (s : State) (q : QueueId) (d : Desc) (k : Nat), s.qCons q = 3 → s.matrix.ecc = [] →
    let b := s.qBed q
    let u := s.startRun q d
    let rq (a len : Nat) : Rq := { unitRq (4 + b) (partByte (s.qPart q)) false with addr := a, len }
    let own (off : Nat) : Prop := u.isOn (3 + 9 * b) = true ∧ u.scrubs = [] ∧
      u.owns (s.qPart q) 5 (4 * b + off / 2 ^ 16) = true
    (Accepted s q d none → d.opc = 0x42 → u.tagBound q d = true → d.f 24 4 % 64 = 0 → d.f 28 4 = 64 → d.f 24 4 + 64 ≤ 2 ^ 18 →
      d.f 16 8 % 64 = 0 → u.resolve (rq (d.f 16 8) 64) = .ok (.mem k) → own (d.f 24 4) →
      ∃ t, exec (.cacheFill q) s = .next t ∧ Dispatched s t q d ∧ EndsWith t q 0 0 0 ∧
        t.rdBytes (memKey (16 + b) (d.f 24 4)) 64 = s.rdBytes k 64) ∧
    (Accepted s q d none → d.opc = 0x43 → u.tagBound q d = true → d.f 16 4 % 64 = 0 → d.f 20 4 = 64 → d.f 16 4 + 64 ≤ 2 ^ 18 →
      d.f 24 8 = 0 → own (d.f 16 4) →
      ∃ t, exec (.cacheEvict q) s = .next t ∧ Dispatched s t q d ∧ EndsWith t q 0 0 0 ∧
        t.rdBytes (memKey (16 + b) (d.f 16 4)) 64 = zeros 64) ∧
    (Accepted s q d none → d.opc = 0x50 → d.f 16 1 < 8 → s.tablesInUse b = false →
      s.owns (s.qPart q) 0xA (8 * b + d.f 16 1) = true → u.tagBound q d = true → d.f 32 4 = 1600 →
      u.opens (4 + b) (partByte (s.qPart q)) false (d.f 24 8) 1600 →
      tableOk (s.rdBytes (d.f 24 8 % 2 ^ 53) 1600) = true →
      ∃ t r, exec (.tableLoad q) s = .next t ∧ Dispatched s t q d ∧ EndsWith t q 0 0 0 ∧ (t.queue q).run = some r ∧
        r.table = some (8 * b + d.f 16 1, s.rdBytes (d.f 24 8 % 2 ^ 53) 1600)))

/-- An engine's descriptor that passes its checks, and whose accesses every target accepts, ends with status 0 and the
elements or rows × elements it did in `DETAIL` (Table QD-6, R174; how its accesses are cut and ordered is log 12, and
what it waits for of other devices log 145). So does every one without a batch tag whose operands lie in memory, outside
the State Store, where its bed's units may read and write them (R164, R178, R186, R206). -/
def Obligations.BedEnginesComplete : Prop :=
  ∀ (s : State) (q : QueueId) (d : Desc),
    let u := s.startRun q d
    let v := u.working q
    let b := u.qBed q
    let vl := d.f 16 4
    (∀ rows ops ops' u1 u2, Accepted s q d (u.elementRanges d) → d.opc = 0x20 →
      v.rowsAndLength q d vl = .ok rows → v.readStick b (u.qWho q) (d.f 32 8) (d.f 20 1) = (u1, .ok ops) →
      u1.ownsTables (u1.qPart q) b ops = true → (u1.elementEnv b d).check {} 0 ops = .ok ops' →
      u1.elementCacheOk d vl (u1.rowLen q d vl) = true →
      u1.overGroups (fun s _ g => s.elementGroup (s.qBed q) (s.qWho q) d rows ops' g) ()
        (List.range ((vl + 127) / 128)) = (u2, (), none) → Unasked u2 q →
      ∃ t, exec (.element q) s = .next t ∧ EndsWith t q 0 0 vl ∧ t.mem = u2.mem) ∧
    (∀ rows carries u1 x u2 u3, ∀ c ∈ [(Instr.scanPrefixSum q, 0), (.scanSegmentedSum q, 1), (.scanAffine q, 2)],
      Accepted s q d (u.scanRanges d) → d.opc = 0x22 → d.kind = c.2 → v.rowsAndLength q d vl = .ok rows →
      v.scanCacheOk d vl (v.rowLen q d vl) (carryRows d rows).length = true →
      v.eachOf (fun s r => s.carryIn b (u.qWho q) d rows r) (carryRows d rows) = (u1, .ok carries) →
      u1.overGroups (fun s x g => s.scanGroup b (u.qWho q) d rows carries x g) {}
        (List.range ((vl + 127) / 128)) = (u2, x, none) →
      u2.carryOut b (u.qWho q) d rows x.lasts = (u3, .ok ()) → Unasked u3 q →
      ∃ t, exec c.1 s = .next t ∧ EndsWith t q 0 0 vl ∧ t.mem = u3.mem) ∧
    (∀ rows mask u1 x u2, ∀ c ∈ [(Instr.reduce q, 0), (.reduceSoftMaxThreePass q, 1), (.reduceSoftMaxTwoPass q, 2)],
      Accepted s q d (u.reduceRanges d) → d.opc = 0x21 → d.smax = c.2 → v.rowsAndLength q d vl = .ok rows →
      d.f 56 4 * vl ≤ 2 ^ 24 → reduceCacheOk d = true → v.readMask b (u.qWho q) d = (u1, .ok mask) →
      u1.overGroups (fun s x r => s.reduceRow q d mask x r) {} (List.range (d.f 56 4)) = (u2, x, none) →
      Unasked u2 q →
      ∃ t, exec c.1 s = .next t ∧ EndsWith t q 0 0 (d.f 56 4 * vl) ∧ t.mem = u2.mem ∧
        (d.sums = true → ∃ r, (t.queue q).run = some r ∧
          r.summaries = some (d.f 24 1, d.f 22 1 % 8, summaries d x.rows))) ∧
    (s.matrix.ecc = [] → d.tag = 0 → 1 ≤ vl → vl ≤ 2 ^ 24 →
      (∀ ops, Accepted s q d (u.elementRanges d) → d.opc = 0x20 →
        (∀ x ∈ d.ins, u.streamOpen q false x.addr x.code vl) → (∀ x ∈ d.outs, u.streamOpen q true x.addr x.code vl) →
        (d.masked = true → u.opens (4 + b) (u.qWho q) false (d.f 88 8) ((vl + 7) / 8)) →
        u.opens (4 + b) (u.qWho q) false (d.f 32 8) (8 * d.f 20 1) →
        u.ownsTables (u.qPart q) b (u.stickAt (d.f 32 8) (d.f 20 1)) = true →
        (u.elementEnv b d).check {} 0 (u.stickAt (d.f 32 8) (d.f 20 1)) = .ok ops → u.elementCacheOk d vl 0 = true →
        ∃ t, exec (.element q) s = .next t ∧ Dispatched s t q d ∧ EndsWith t q 0 0 vl) ∧
      (∀ c ∈ [(Instr.scanPrefixSum q, 0), (.scanSegmentedSum q, 1), (.scanAffine q, 2)],
        Accepted s q d (u.scanRanges d) → d.opc = 0x22 → d.kind = c.2 →
        (∀ x ∈ [d.scanA, d.scanB], u.streamOpen q false x.addr x.code vl) →
        u.streamOpen q true d.scanOut.addr d.scanOut.code vl →
        (d.seg = 1 → u.opens (4 + b) (u.qWho q) false (d.f 40 8) ((vl + 7) / 8)) →
        (d.carry ≠ 0 → ∀ wr, u.opens (4 + b) (u.qWho q) wr d.carry 4) → u.scanCacheOk d vl 0 1 = true →
        ∃ t, exec c.1 s = .next t ∧ Dispatched s t q d ∧ EndsWith t q 0 0 vl) ∧
      (∀ c ∈ [(Instr.reduce q, 0), (.reduceSoftMaxThreePass q, 1), (.reduceSoftMaxTwoPass q, 2)],
        Accepted s q d (u.reduceRanges d) → d.opc = 0x21 → d.smax = c.2 → d.f 56 4 * vl ≤ 2 ^ 24 →
        (∀ r, r < d.f 56 4 → u.streamOpen q false (d.f 32 8 + r * d.f 60 4) d.ifmt vl ∧
          (d.smax ≠ 0 → u.streamOpen q true (d.f 32 8 + r * d.f 60 4) d.ifmt vl) ∧
          u.opens (4 + b) (u.qWho q) true (d.f 48 8 + 128 * r) 128) →
        (d.f 40 8 ≠ 0 → u.opens (4 + b) (u.qWho q) false (d.f 40 8) ((vl + 7) / 8)) → reduceCacheOk d = true →
        ∃ t, exec c.1 s = .next t ∧ Dispatched s t q d ∧ EndsWith t q 0 0 (d.f 56 4 * vl)))

/-- A `MATMUL` that fails checks 2 to 6 of Table AI-5 is refused with the code of the first that fails: the fault
names the bed and the descriptor's ring address, and memory keeps every byte (R163). A `MATMUL` in each of its three
modes whose checks pass holds its beds and runs its output tiles in order; if every tile is written it ends with
status 0 and, where it finishes output tiles, their number in `DETAIL` (Table AI-5, R142, R161; the order of its
accesses is log 12, of its checks log 58). One on a single bed whose operands lie where the bed reaches them completes in
each mode, a combining one with an empty partial set (R142, R152, R153). -/
def Obligations.MatmulChecksAndCompletes : Prop :=
  (∀ (s : State) (q : QueueId) (d : Desc) (code : Nat),
    ∀ c ∈ [(Instr.matmul q, false), (.matmulRaw q, true)],
      Accepted s q d ((s.startRun q d).matmulRanges d) → d.opc = 0x10 → d.raw = c.2 → d.combine = false →
      (s.startRun q d).issueCheck d = some code →
      ∃ t, exec c.1 s = .next t ∧ EndsWith t q 2 code 0 ∧ t.mem = s.mem ∧
        Raised (s.startRun q d) t code (partByte (s.qPart q)) (s.qBed q) (s.qEntry q d.index.toNat) 0 0) ∧
  (∀ (s : State) (q : QueueId) (d : Desc) (rows : Option Rows) (ops : List TypedOp) (count : Nat) (u1 u2 : State),
    ∀ c ∈ [(Instr.matmul q, false, false), (.matmulRaw q, true, false), (.matmulCombine q, false, true)],
      Accepted s q d ((s.startRun q d).matmulRanges d) → d.opc = 0x10 → d.raw = c.2.1 → d.combine = c.2.2 →
      ((s.startRun q d).working q).matmulWork q d = u1.matmulRun q d rows ops count → u1.stagedBeds d = [] →
      u1.walk q d rows ops count d.tiles = (u2, none) → u2.stagedBeds d = [] → Unasked u2 q →
      ∃ t, exec c.1 s = .next t ∧ EndsWith t q 0 0 (if d.raw || d.finishes then d.tiles.length else 0) ∧ t.mem = u2.mem) ∧
  (∀ (s : State) (q : QueueId) (d : Desc) (n : Nat) (ops : List TypedOp),
    let u := s.startRun q d
    let b := u.qBed q
    let stick := u.stickAt (d.f 64 8) n
    ∀ c ∈ [(Instr.matmul q, false, false), (.matmulRaw q, true, false), (.matmulCombine q, false, true)],
      Accepted s q d (u.matmulRanges d) → d.opc = 0x10 → d.raw = c.2.1 → d.combine = c.2.2 → u.matmulOpen q d n →
      (d.raw = false → 1 ≤ n ∧ n ≤ 32 ∧ (∀ o ∈ stick.dropLast, o.last = false) ∧ (∀ o ∈ stick.getLast?, o.last = true) ∧
        u.ownsTables (u.qPart q) b stick = true ∧ (u.postEnv b d).check {} 0 stick = .ok ops) →
      (d.combine = true → u.opens (4 + b) (u.qWho q) false d.psum 64 ∧ s.rdBytes (d.psum % 2 ^ 53) 64 = zeros 64) →
      ∃ t, exec c.1 s = .next t ∧ Dispatched s t q d ∧ EndsWith t q 0 0 d.tiles.length)

/-! ### Epoch Tracker -/

/-- An epoch begins on prediction while the Tracker is LOCKED or FLYWHEEL on a source whose edges are qualified, and
by count under the divider and in LOST and ACQUIRE: its number is the last one plus 1 and it starts at the first cycle
at or after the predicted edge, in Rest the first REFCLK cycle (R22, R24, R28, R29, R374). The Tracker has no time before it has started: then no boundary
comes, and `EPOCH_OUT` does not move. -/
def Obligations.EpochsBegin : Prop :=
  (∀ (s : State), s.tracker.running = true →
    let x := s.countedInt (firstCycle s.tracker.pred)
    (s.tracker.onPred = false → s.tracker.source ≠ .divider →
      (s.tracker.state = .locked ∨ s.tracker.state = .flywheel) →
      ∃ t, exec .predictedEdge s = .next t ∧ t.epoch = s.epoch + 1 ∧ t.tracker.start = x ∧
        t.tracker.outRise = some (x + 128) ∧ x.toNat ≤ t.cycle ∧
        t.counters = s.counters ∧ t.queues = s.queues) ∧
    ((s.tracker.source = .divider ∧ s.tracker.state = .locked ∨ s.tracker.state = .lost ∨ s.tracker.state = .acquire) →
      ∃ t, exec .epochBoundary s = .next t ∧ t.epoch = s.epoch + 1 ∧ t.tracker.start = x ∧
        t.tracker.outRise = some (x + 128) ∧ x.toNat ≤ t.cycle ∧
        t.counters = s.counters ∧ t.queues = s.queues)) ∧
  (∀ (s : State), s.tracker.running = false →
    exec .predictedEdge s = .next s ∧ exec .epochBoundary s = .next s ∧ s.phase = 0)

/-- An edge of `EPOCH_REF` in its window, in LOCKED or FLYWHEEL: it is counted as qualified, the Tracker is LOCKED, P
moves by a sixteenth of its error truncated toward zero where the edge before was qualified too, the next edge is
predicted one P behind it, and an early edge starts its epoch at the edge itself (R21, R27, R28). In host-time mode a
`PPS_IN` edge within its window, with no mark waiting: P follows the one-second interval, the next mark is predicted
one second on, and the Tracker is LOCKED (R24, R27). In Rest an edge counts at the next REFCLK cycle (R374). -/
def Obligations.QualifiedEdges : Prop :=
  (∀ (s : State) (at_ : Nat), s.tracker.source = .epochRef → s.sourceSettled →
    (s.tracker.state = .locked ∨ s.tracker.state = .flywheel) → s.inWindow (s.counted at_) = true →
    let t := s.counted at_
    let i : Int := 256 * ((t : Int) - s.tracker.last)
    let p : Nat := if s.tracker.prevOk
      then ((s.tracker.period : Int) + Int.tdiv (i - s.tracker.period) 16).toNat else s.tracker.period
    ∃ u, exec (.epochRefEdge at_) s = .next u ∧ u.tracker.state = .locked ∧ u.tracker.period = p ∧
      u.tracker.last = t ∧ u.tracker.pred = 256 * (t : Int) + p ∧ u.tracker.missing = 0 ∧ u.tracker.prevOk = true ∧
      u.tracker.onPred = false ∧ u.epoch = (if s.tracker.onPred then s.epoch else s.epoch + 1) ∧
      u.tracker.start = (if 256 * (t : Int) < s.tracker.pred then (t : Int)
        else if s.tracker.onPred then s.tracker.start else s.countedInt (firstCycle s.tracker.pred)) ∧
      u.obj 0x2004 1 = (s.obj 0x2004 1 + 1) % 2 ^ 32 ∧ t + 102 ≤ u.cycle) ∧
  (∀ (s : State) (at_ : Nat) (x : Int), s.tracker.source = .hostTime →
    let t := s.counted at_
    (s.tracker.state = .locked ∨ s.tracker.state = .flywheel) → s.tracker.ppsPred = some x →
    (256 * (t : Int) - x).natAbs ≤ s.windowHalf.natAbs → s.tracker.mark = none →
    let i : Int := (s.obj 0x2001 0 * 256 : Int) * ((t : Int) - s.tracker.last) / 1000000000
    let p : Nat := if s.tracker.prevOk
      then ((s.tracker.period : Int) + Int.tdiv (i - s.tracker.period) 16).toNat else s.tracker.period
    ∃ u, exec (.ppsInEdge at_) s = .next u ∧ u.tracker.state = .locked ∧ u.tracker.period = p ∧ u.tracker.last = t ∧
      u.tracker.ppsPred = some (256 * (t : Int) + 256 * 1000000000) ∧
      u.tracker.pred = s.tracker.pred + ((p : Int) - s.tracker.period) ∧ u.epoch = s.epoch ∧
      u.obj 0x2004 1 = (s.obj 0x2004 1 + 1) % 2 ^ 32)

/-- An edge outside its window, and any edge in LOST, is spurious: it is counted in object 0x2004:02 and has no other
effect; an edge of a source that is not selected, or in IDLE, has none (R27, R29). A pulse that the filter discards is
counted in object 0x2004:03 on the pin of the selected source, and nowhere else (R26; the source selected while the
Tracker is IDLE is log 22). -/
def Obligations.SpuriousEdges : Prop :=
  (∀ (s : State) (t : Nat),
    let u := s.advance (s.counted t + 102)
    (s.tracker.source ≠ .epochRef ∨ s.tracker.state = .idle → exec (.epochRefEdge t) s = .next u) ∧
    (s.tracker.source = .epochRef →
      (s.tracker.state = .lost ∨ (s.tracker.state = .locked ∨ s.tracker.state = .flywheel) ∧ s.inWindow (s.counted t) = false) →
      exec (.epochRefEdge t) s = .next (u.setObj 0x2004 2 ((s.obj 0x2004 2 + 1) % 2 ^ 32))) ∧
    (s.tracker.source ≠ .hostTime ∨ s.tracker.state = .idle → exec (.ppsInEdge t) s = .next u) ∧
    (s.tracker.source = .hostTime → (s.tracker.state = .lost ∨
        (s.tracker.state = .locked ∨ s.tracker.state = .flywheel) ∧
          ∃ x, s.tracker.ppsPred = some x ∧ s.windowHalf.natAbs < (256 * (s.counted t : Int) - x).natAbs) →
      exec (.ppsInEdge t) s = .next (u.setObj 0x2004 2 ((s.obj 0x2004 2 + 1) % 2 ^ 32)))) ∧
  (∀ (s : State) (p : RefPin),
    let source := if s.tracker.state = .idle then sourceOf (s.obj 0x2000 1) else s.tracker.source
    exec (.filteredPulse p) s = .next (if source = (if p = .epochRef then .epochRef else .hostTime)
      then s.setObj 0x2004 3 ((s.obj 0x2004 3 + 1) % 2 ^ 32) else s))

/-- A window that closes without a qualified edge: the first miss takes the Tracker to FLYWHEEL, counts and raises
0x0101, the 17th in a row takes it to LOST and raises 0x0102; the next edge is predicted one P on, the next one-second
mark of host time one second on (R24, R28, R29). -/
def Obligations.MissedWindows : Prop :=
  ∀ (s : State), s.tracker.running = true → (s.tracker.state = .locked ∨ s.tracker.state = .flywheel) →
    ((s.tracker.source = .epochRef ∨ s.tracker.source = .trellis) ∧ s.tracker.onPred = true ∨
      s.tracker.source = .hostTime ∧ s.tracker.ppsPred.isSome = true) →
    ∃ t, exec .windowClose s = .next t ∧ t.tracker.missing = s.tracker.missing + 1 ∧ t.tracker.prevOk = false ∧
      (s.tracker.source ≠ .hostTime →
        t.tracker.onPred = false ∧ t.tracker.pred = s.tracker.pred + s.tracker.period) ∧
      (s.tracker.source = .hostTime → t.tracker.pred = s.tracker.pred ∧
        t.tracker.ppsPred = s.tracker.ppsPred.map (· + 256 * 1000000000)) ∧ t.epoch = s.epoch ∧
      t.tracker.state = (if s.tracker.missing = 0 then .flywheel else if s.tracker.missing = 16 then .lost
        else s.tracker.state) ∧
      (s.tracker.missing = 0 → t.obj 0x2004 4 = (s.obj 0x2004 4 + 1) % 2 ^ 32 ∧
        t.obj 0x7011 1 = (s.obj 0x7011 1 + 1) % 2 ^ 32) ∧
      (s.tracker.missing = 16 → t.obj 0x7011 2 = (s.obj 0x7011 2 + 1) % 2 ^ 32)

/-- A Tracker start from IDLE or LOST: with the internal divider selected the Tracker is LOCKED at once, from IDLE with
the first epoch beginning in that cycle under the number of object 0x2002, from LOST with the running epoch going on;
with any other source it is in ACQUIRE for that source, its epochs going on; in LOCKED, FLYWHEEL or ACQUIRE the write is
refused with abort 0x09 (R30). A host epoch mark of 12 bytes waits for its edge: epoch in bytes 0 to 5, phase in bytes 8 to 11;
another length is refused with abort 0x05, a value out of range with 0x06 (R25). -/
def Obligations.TrackerStarts : Prop :=
  (∀ (s : State), s.keeperServes = true →
    (s.tracker.state = .idle → s.obj 0x2000 1 = 0 → ∃ t, exec .trackerStart s = .next t ∧
      t.tracker.state = .locked ∧ t.tracker.source = .divider ∧ t.tracker.running = true ∧
      t.tracker.period = s.obj 0x2001 0 * 256 ∧
      t.epoch = BitVec.ofNat 48 (s.obj 0x2002 0) ∧ t.tracker.start = s.cycle ∧ t.kpp.result = 0) ∧
    (s.tracker.state = .lost → s.obj 0x2000 1 = 0 → ∃ t, exec .trackerStart s = .next t ∧
      t.tracker.state = .locked ∧ t.tracker.source = .divider ∧ t.tracker.period = s.tracker.period ∧
      t.epoch = s.epoch ∧ t.tracker.start = s.tracker.start ∧ t.tracker.pred = s.tracker.pred ∧ t.kpp.result = 0 ∧
      t.mem = s.mem) ∧
    ((s.tracker.state = .idle ∨ s.tracker.state = .lost) → s.obj 0x2000 1 ≠ 0 →
      ∃ t, exec .trackerStart s = .next t ∧ t.tracker.state = .acquire ∧
        t.tracker.source = sourceOf (s.obj 0x2000 1) ∧
        t.tracker.period = (if s.tracker.state = .idle then s.obj 0x2001 0 * 256 else s.tracker.period) ∧
        t.epoch = s.epoch ∧ t.tracker.start = s.tracker.start ∧ t.tracker.pred = s.tracker.pred ∧
        t.tracker.acq = none ∧ t.kpp.result = 0 ∧ t.mem = s.mem) ∧
    (s.tracker.state = .locked ∨ s.tracker.state = .flywheel ∨ s.tracker.state = .acquire →
      exec .trackerStart s = .next { s with kpp := { s.kpp with result := 0x09 } })) ∧
  (∀ (s : State) (l : List Byte), s.keeperServes = true →
    (l.length = 12 → field l 6 2 = 0 → field l 8 4 < 2 ^ 20 →
      exec (.hostEpochMark l) s = .next { s with
        tracker := { s.tracker with mark := some (BitVec.ofNat 48 (field l 0 6), BitVec.ofNat 20 (field l 8 4)) },
        kpp := { s.kpp with result := 0 } }) ∧
    (l.length ≠ 12 → exec (.hostEpochMark l) s = .next { s with kpp := { s.kpp with result := 0x05 } }) ∧
    (l.length = 12 → (field l 6 2 ≠ 0 ∨ 2 ^ 20 ≤ field l 8 4) →
      exec (.hostEpochMark l) s = .next { s with kpp := { s.kpp with result := 0x06 } }))

/-- The epoch master sends a tick at its next phase that is a multiple of 0x1_0000 on every port of the forward mask
that is UP; another SX4 sends none (R39, R271). A follower in LOCKED or FLYWHEEL compares a tick of non-zero phase with
its own time and moves its time by the error, a follower ahead of its master holding its phase; the fault 0x0105 comes
beyond 50 ns only. A phase-0 tick in its window that comes before the predicted edge starts its epoch; one in LOST is
spurious. Every tick from upstream goes on, with the propagation delay and the residence time added to its correction, on
the ports of the forward mask that are UP; a tick from another port does nothing (R28, R29, R39, R40, R271). -/
def Obligations.Ticks : Prop :=
  (∀ (s : State), s.obj 0x2006 1 = s.chip.toNat → s.tracker.source ≠ .trellis →
    (s.tracker.state = .locked ∨ s.tracker.state = .flywheel) →
    let ph := (s.phase + 0xFFFF) / 0x10000 * 0x10000
    ph < 2 ^ 20 → ∃ t, exec .tickSend s = .next t ∧ (s.tracker.reachCycle ph).toNat ≤ t.cycle ∧
      t.tracker = s.tracker ∧ t.mem = s.mem ∧
      ∀ l, l < 8 → (s.obj 0x2006 3).testBit l = true → (s.link l).state = .up →
        SentOrQueued s t l (.tick s.epoch (BitVec.ofNat 20 ph) 0)) ∧
  (∀ (s : State), (s.obj 0x2006 1 ≠ s.chip.toNat ∨ s.tracker.source = .trellis ∨
      (s.tracker.state ≠ .locked ∧ s.tracker.state ≠ .flywheel) ∨ 0xF0000 < s.phase) → exec .tickSend s = .next s) ∧
  (∀ (s : State) (l : Port) (e : BitVec 48) (ph : BitVec 20) (corr : W32) (arr : Nat), (s.link l).state = .up →
    let u := s.advance arr
    let d := s.obj 0x3300 (0x10 + l.val)
    let at0 : Int := (arr : Int) - d - corr.toNat
    let eps := s.tracker.cycleOf e ph.toNat - at0
    let follows := s.tracker.source = .trellis ∧ s.obj 0x2006 2 = l.val
    let keepsTime := s.tracker.state = .locked ∨ s.tracker.state = .flywheel
    let runs (t : State) : Prop := exec (.tick l (s.link l).rxSeq e ph corr arr) s = .next t ∧ t.cycle = u.cycle ∧
      (s.obj 0x2006 2 = l.val → ∀ o, o < 8 → (s.obj 0x2006 3).testBit o = true → (s.link o).state = .up →
        SentOrQueued s t o (.tick e ph (corr + BitVec.ofNat 32 (d + (u.cycle - arr)))))
    (follows → keepsTime → ph ≠ 0 → (eps ≤ 0 ∨ 256 * (u.cycle : Int) < s.tracker.nextBoundary - 256 * eps) →
      ∃ t, runs t ∧ t.tracker.start = s.tracker.start - eps ∧ t.tracker.pred = s.tracker.pred - 256 * eps ∧
        t.obj 0x2007 1 = (BitVec.ofInt 32 eps).toNat ∧ t.epoch = s.epoch ∧ t.mem = s.mem ∧
        (eps < 0 → s.tracker.hold = none →
          t.tracker.hold = some ((t.cycle : Int) - eps, BitVec.ofNat 20 u.phase)) ∧
        (eps.natAbs ≤ 50 → t.faults = s.faults) ∧
        (50 < eps.natAbs → t.obj 0x7011 5 = (s.obj 0x7011 5 + 1) % 2 ^ 32)) ∧
    (follows → keepsTime → s.sourceSettled → ph = 0 → s.inWindow at0 = true → 256 * at0 < s.tracker.pred →
      s.tracker.onPred = false → e = s.epoch + 1 →
      ∃ t, runs t ∧ t.epoch = e ∧ t.tracker.start = at0 ∧ t.tracker.state = .locked ∧ t.tracker.missing = 0 ∧
        t.tracker.last = at0) ∧
    (follows → s.tracker.state = .lost → ph = 0 →
      ∃ t, runs t ∧ t.tracker = s.tracker ∧ t.mem = s.mem ∧ t.obj 0x2004 2 = (s.obj 0x2004 2 + 1) % 2 ^ 32) ∧
    ((¬ follows ∨ s.tracker.state = .idle ∨ (s.tracker.state = .acquire ∨ s.tracker.state = .lost) ∧ ph ≠ 0) →
      ∃ t, runs t ∧ t.tracker = s.tracker ∧ t.mem = s.mem ∧ t.objs = s.objs))

/-! ### Almanac -/

/-- The actions on queues, counters and timers: `RELEASE` and `PUBLISH` move `REL` of a queue in held mode by up to
`ARG` descriptors, none of them pushed in the cycle of the action, `SIGNAL` adds `ARG` to its counter, `TIMER_START`
zeroes and starts its timer with the limit `ARG`, `TIMER_STOP` keeps the elapsed time (Table EA-5, R36, R38). An entry of
an epoch that has ended acts for that epoch (R34; at its own phase, log 128). A
running timer whose elapsed epochs have reached its limit stops at the limit and is expired; one without a limit goes
on (R38; how elapsed epochs are counted at the bound is log 26). -/
def Obligations.AlmanacActions : Prop :=
  (∀ (s : State) (k : EntryId) (t : Nat) (b : Backlog),
    let target := bits b.bits.toNat 95 80
    let arg := bits b.bits.toNat 127 96
    let q := target % 32
    let c := target % 1024 / 256 * 64 + target % 64
    (∀ e ∈ [(Instr.almanacRelease k t, 3), (.almanacPublish k t, 6)], Fires s k t e.2 b →
      ∃ u, exec e.1 s = .next u ∧ u.mem = s.mem ∧ u.counters = s.counters ∧
        u.queue q = (if s.qHeld q then
          { s.queue q with rel := (s.advance t).fireCycle.releasedTo q arg } else s.queue q) ∧
        ((s.queue q).pushCycle = (s.advance t).fireCycle.cycle → (s.queue q).tailBefore = (s.queue q).rel →
          u.queue q = s.queue q) ∧
        ∀ x, x ≠ q → u.queue x = s.queue x) ∧
    (Fires s k t 4 b → ∃ u, exec (.almanacSignal k t) s = .next u ∧ u.mem = s.mem ∧ u.queues = s.queues ∧
      (u.counter c).toNat = ((s.counter c).toNat + arg) % 2 ^ 32 ∧ ∀ x, x ≠ c → u.counter x = s.counter x) ∧
    (Fires s k t 7 b → ∃ u, exec (.timerStart k t) s = .next u ∧ (u.timer q).running = true ∧
      (u.timer q).expired = false ∧ (u.timer q).limit.toNat = arg ∧ (u.timer q).startEpoch = b.epoch ∧
      (u.timer q).startPhase = BitVec.ofNat 20 (if b.epoch = s.epoch then (s.advance t).fireCycle.phase
        else bits b.bits.toNat 19 0) ∧ ∀ x, x ≠ q → u.timer x = s.timer x) ∧
    (Fires s k t 8 b → (s.timer q).running = true → ∃ u, exec (.timerStop k t) s = .next u ∧
      (u.timer q).running = false ∧
      ((u.timer q).epochs, (u.timer q).phase) =
        s.timerAt q (b.epoch, if b.epoch = s.epoch then (s.advance t).fireCycle.phase else bits b.bits.toNat 19 0) ∧ ∀ x, x ≠ q → u.timer x = s.timer x)) ∧
  (∀ (s : State) (n : Fin 32), (s.timer n).running = true →
    ((s.timer n).limit ≠ 0 → (s.timer n).limit.toNat ≤ (s.timerValue n).1.toNat →
      ∃ t, exec (.timerExpire n) s = .next t ∧ t = { s with almanac := { s.almanac with timers := t.almanac.timers } } ∧
        (t.timer n).running = false ∧ (t.timer n).expired = true ∧ (t.timer n).epochs = (s.timer n).limit ∧
        (t.timer n).phase = 0 ∧ ∀ x, x ≠ n.val → t.timer x = s.timer x) ∧
    ((s.timer n).limit = 0 → exec (.timerExpire n) s = .next s))

/-- The actions on a partition's step: `STEP_OPEN` opens it for the entry's epoch with the commit group then in force;
`STEP_COMMIT` of a group on this SX4 alone closes it, one of a participant in a group that spans devices judges the step
and votes; neither touches a step that is not there to be opened or closed. `INGEST_CUTOFF` takes the open epoch of its
queues to the epoch behind its own, and sets up the frame list of that epoch where none stands (R9, R11, R34, R61, R272,
R273, R345, R350; which queues is log 24). -/
def Obligations.AlmanacStepActions : Prop :=
  ∀ (s : State) (k : EntryId) (t : Nat) (b : Backlog),
    let p := bits b.bits.toNat 58 56
    (Fires s k t 2 b → (s.step1 p).isOpen = false → ∃ u, exec (.stepOpen k t) s = .next u ∧
      (u.step1 p).isOpen = true ∧ (u.step1 p).epoch = b.epoch ∧ (u.step1 p).judged = none ∧
      (u.step1 p).group = s.obj 0x3300 (0x30 + p) ∧
      (u.step1 p).coordinator = BitVec.ofNat 7 (s.obj 0x3300 (0x38 + p)) ∧
      ∀ x, x ≠ p → u.step1 x = s.step1 x) ∧
    (Fires s k t 2 b → (s.step1 p).isOpen = true → ∃ u, exec (.stepOpen k t) s = .next u ∧
      u.streams = s.streams ∧ u.mem = s.mem) ∧
    (Fires s k t 5 b → (s.step1 p).isOpen = true → (s.step1 p).judged = none → s.spans (s.step1 p).group = true →
      (s.step1 p).outcome ≠ some ((s.step1 p).epoch, .void) → (s.step1 p).coordinator ≠ s.chip →
      ∃ u j, exec (.stepCommit k t) s = .next u ∧ u.mem = s.mem ∧ (u.step1 p).isOpen = true ∧
        (u.step1 p).judged = some j ∧ j.epoch = (s.step1 p).epoch ∧ j.commitEpoch = b.epoch ∧
        (∀ i, i ∈ j.complete ∨ i ∈ j.incomplete ↔ i ∈ s.boundSlots p) ∧
        ∀ x, s.routePort (s.step1 p).coordinator = some x →
          SentOrQueued s u x (.vote (s.stepMsg p (s.step1 p).coordinator.toNat (s.step1 p).epoch .undecided))) ∧
    (Fires s k t 5 b → (s.step1 p).isOpen = true → (s.step1 p).judged = none → s.spans (s.step1 p).group = false →
      ∃ u, exec (.stepCommit k t) s = .next u ∧ (u.step1 p).isOpen = false ∧
        (∀ x ∈ u.streams.batches, x.part.val ≠ p) ∧ ∀ x, x ≠ p → u.step1 x = s.step1 x) ∧
    (Fires s k t 5 b → (s.step1 p).isOpen = false → ∃ u, exec (.stepCommit k t) s = .next u ∧
      u.streams = s.streams ∧ u.mem = s.mem) ∧
    (Fires s k t 1 b → ((p, b.epoch + 1) ∈ s.host.lists ∨
        s.opens 13 (partByte p) true (localAddr 0 (s.listOff p (b.epoch + 1))) 64) →
      ∃ u, exec (.ingestCutoff k t) s = .next u ∧
      (∀ q, q < 16 → (bits b.bits.toNat 95 80).testBit q = true → s.qPart (16 + q) = p → s.qCons (16 + q) = 6 →
        (p, b.epoch + 1) ∈ u.host.lists) ∧
      (∀ q, q < 16 → (bits b.bits.toNat 95 80).testBit q = true →
        s.qPart (16 + q) = p → s.qCons (16 + q) = 6 → tget u.host.openEpoch (16 + q) 0 = b.epoch + 1) ∧
      ∀ q, (q < 16 ∨ ¬ (bits b.bits.toNat 95 80).testBit (q - 16) = true) →
        tget u.host.openEpoch q 0 = tget s.host.openEpoch q 0)

/-- An entry that may not take effect when it comes up is skipped and counted in object 0x2103:06; one that has not
come up, or behind which another comes up first, does nothing (R45, R289, R37). Exchanging pages: a request for the inactive page starts its validation; one
that names the active page, or that arrives while the status reads 1 or 2, is refused with abort 0x09, a value above 2
with 0x06, and neither changes anything but the answer; a cancel withdraws a validating or pending exchange and else
has no effect; a valid page is pending, a bad one is refused with its reason and 0x0103; and at the next boundary a
pending page is the active one (R42 to R44). -/
def Obligations.AlmanacSkipsAndPages : Prop :=
  (∀ (s : State) (k : EntryId) (t : Nat),
    ∀ e ∈ [(Instr.ingestCutoff k t, 1), (.stepOpen k t, 2), (.almanacRelease k t, 3), (.almanacSignal k t, 4),
        (.stepCommit k t, 5), (.almanacPublish k t, 6), (.timerStart k t, 7), (.timerStop k t, 8), (.prefetch k t, 0xB)],
      (∀ b, (s.advance t).nextFiring = some b → b.index = k.val → bits b.bits.toNat 63 60 = e.2 →
        ((s.advance t).popFiring b).takesEffect b = false →
        ∃ u, exec e.1 s = .next u ∧ u.obj 0x2103 6 = (s.obj 0x2103 6 + 1) % 2 ^ 32 ∧ u.mem = s.mem ∧
          u.queues = s.queues ∧ u.counters = s.counters ∧ u.streams = s.streams ∧
          u.almanac.timers = s.almanac.timers) ∧
      ((∀ b, (s.advance t).nextFiring = some b → b.index ≠ k.val ∨ bits b.bits.toNat 63 60 ≠ e.2) →
        exec e.1 s = .next (s.advance t))) ∧
  (∀ (s : State) (page : BitVec 8), s.keeperServes = true →
    (1 ≤ page.toNat → page.toNat ≤ 2 → page.toNat ≠ s.obj 0x2103 1 → s.obj 0x2103 3 ≠ 1 → s.obj 0x2103 3 ≠ 2 →
      ∃ t, exec (.almanacExchangeRequest page) s = .next t ∧ t.obj 0x2103 3 = 1 ∧ t.kpp.result = 0) ∧
    (1 ≤ page.toNat → page.toNat ≤ 2 → (page.toNat = s.obj 0x2103 1 ∨ s.obj 0x2103 3 = 1 ∨ s.obj 0x2103 3 = 2) →
      exec (.almanacExchangeRequest page) s = .next { s with kpp := { s.kpp with result := 0x09 } }) ∧
    ((s.obj 0x2103 3 = 1 ∨ s.obj 0x2103 3 = 2) →
      ∃ t, exec .almanacExchangeCancel s = .next t ∧ t.obj 0x2103 3 = 0 ∧ t.obj 0x2103 1 = s.obj 0x2103 1 ∧
        t.kpp.result = 0) ∧
    (s.obj 0x2103 3 ≠ 1 → s.obj 0x2103 3 ≠ 2 →
      exec .almanacExchangeCancel s = .next { s with kpp := { s.kpp with result := 0 } }) ∧
    (2 < page.toNat →
      exec (.almanacExchangeRequest page) s = .next { s with kpp := { s.kpp with result := 0x06 } }) ∧
    (s.obj 0x2103 3 = 1 → s.pageReason (3 - s.obj 0x2103 1) = none →
      ∃ t, exec .pageValidationDone s = .next t ∧ t.obj 0x2103 3 = 2 ∧ t.obj 0x2103 1 = s.obj 0x2103 1 ∧
        t.faults = s.faults) ∧
    (∀ r, s.obj 0x2103 3 = 1 → s.pageReason (3 - s.obj 0x2103 1) = some r →
      ∃ t, exec .pageValidationDone s = .next t ∧ t.obj 0x2103 3 = 3 ∧ t.obj 0x2103 4 = r ∧
        t.obj 0x2103 1 = s.obj 0x2103 1 ∧ t.obj 0x7011 3 = (s.obj 0x7011 3 + 1) % 2 ^ 32) ∧
    (s.obj 0x2103 3 = 2 → s.tracker.running = true → s.tracker.source = .divider → s.tracker.state = .locked →
      ∃ t, exec .epochBoundary s = .next t ∧ t.obj 0x2103 1 = 3 - s.obj 0x2103 1 ∧ t.obj 0x2103 3 = 0))

/-! ### Streams and their state -/

/-- A stream table entry and a slot header read back as they were written, for every field at every value it admits:
the places of the fields in memory do not overlap (Table SS-1, Table SS-3). A slot that flips has the other half
current, its epoch in `CEPOCH` and its step bits clear, and is counted; a slot that misses keeps its half, counts the
miss up to the largest value, and has its step bits clear (R63; that the count stops there is log 16). At
`STEP_COMMIT` of a step on this SX4 alone a slot whose `DONE` was set before that cycle flips, any other misses (R11,
R12). -/
def Obligations.SlotsAndEntries : Prop :=
  ((∀ e : Entry, e.fits → e.toNat < 2 ^ 256 ∧ entryOf e.toNat = e) ∧
  (∀ h : Header, h.fits → h.toNat < 2 ^ 192 ∧ headerOf h.toNat = h) ∧
  (∀ (s : State) (i : Nat) (e : Entry), e.fits → (s.setEntry i e).entry i = e) ∧
  (∀ (s : State) (p i : Nat) (h : Header), h.fits → (s.setHeader p i h).header p i = h)) ∧
  (∀ (s : State) (p i : Nat),
    let h := s.header p i
    (∀ e, let t := s.flipSlot p e i
     t.header p i = { h with cur := !h.cur, cepoch := e.toNat, bound := false, step := false, rst := false } ∧
     t.obj (0x4020 + p) 1 = (s.obj (0x4020 + p) 1 + 1) % 2 ^ 32) ∧
    (let t := s.missSlot p i
     t.header p i = { h with miss := Min.min (h.miss + 1) (2 ^ 32 - 1), bound := false, step := false, rst := false } ∧
     t.obj (0x4020 + p) 2 = (s.obj (0x4020 + p) 2 + 1) % 2 ^ 32) ∧
    (∀ (k : EntryId) (c : Nat) (b : Backlog), Fires s k c 5 b → bits b.bits.toNat 58 56 = p →
      (s.step1 p).isOpen = true → (s.step1 p).judged = none → s.spans (s.step1 p).group = false →
      s.boundSlots p = [i] →
      ∃ t, exec (.stepCommit k c) s = .next t ∧ t.header p i =
        if h.step = true ∧ ¬ (s.streams.doneCycle = (s.advance c).fireCycle.cycle ∧ (p, i) ∈ s.streams.doneNow)
        then { h with cur := !h.cur, cepoch := b.epoch.toNat, bound := false, step := false, rst := false }
        else { h with miss := Min.min (h.miss + 1) (2 ^ 32 - 1), bound := false, step := false, rst := false }))

/-- A write of the stream table base: with the lock clear, where no table stands or no stream is Resident and no state
descriptor runs, a multiple of 64 KiB is taken and the table is being cleared; the base that stands changes nothing; a
value out of range is refused with abort 0x06, a changed base in use with 0x09, any under the lock with 0x07. When the
clearing is over every byte of the table is zero, so every entry is Free with `GEN` 0, and no other byte has changed
(R47, R49). -/
def Obligations.StreamTableSetUp : Prop :=
  ∀ (s : State) (v : W64), s.keeperServes = true →
    let answers (c : BitVec 8) : Prop :=
      exec (.streamTableBaseWrite v) s = .next { s with kpp := { s.kpp with result := c } }
    let changed := v.toNat % 2 ^ 16 = 0 ∧ v.toNat < 2 ^ 48 ∧ (s.streams.tableSet = true → v.toNat ≠ s.obj 0x4000 1)
    (s.locked = true → answers 0x07) ∧
    (s.locked = false → (v.toNat % 2 ^ 16 ≠ 0 ∨ 2 ^ 48 ≤ v.toNat) → answers 0x06) ∧
    (s.locked = false → v.toNat % 2 ^ 16 = 0 → v.toNat < 2 ^ 48 → s.streams.tableSet = true →
      v.toNat = s.obj 0x4000 1 → answers 0) ∧
    (s.locked = false → changed → s.streams.tableSet = true → (s.residents ≠ [] ∨ s.stateRunning = true) →
      answers 0x09) ∧
    (s.locked = false → changed → (s.streams.tableSet = false ∨ s.residents = [] ∧ s.stateRunning = false) →
      ∃ t, exec (.streamTableBaseWrite v) s = .next t ∧ t.obj 0x4000 1 = v.toNat ∧ t.streams.tableSet = true ∧
        t.streams.clearing = true ∧ t.streams.prefetches = [] ∧ t.kpp.result = 0 ∧
        (s.streams.prefetches = [] → t.mem = s.mem)) ∧
    (s.streams.clearing = true →
      let cleared (t : State) : Prop := t.streams.clearing = false ∧
        ∀ k, t.rd8 k = (if s.obj 0x4000 1 ≤ k ∧ k < s.obj 0x4000 1 + 32 * 262144 then 0 else s.rd8 k)
      (s.kpp.deferred = none → ∃ t, exec .streamTableCleared s = .next t ∧ cleared t ∧ t.kpp = s.kpp) ∧
      (∀ h, s.kpp.deferred = some h → s.kpp.waiting = [] → h.cmd = 2 → h.req.index = 0x4000 → h.discard = false →
        h.key.chip = s.chip → h.key.transport = .mailbox →
        ∃ t, exec .streamTableCleared s = .next t ∧ cleared t ∧ t.kpp.deferred = none ∧ Answers t h 0x82 0 []))

/-- A state descriptor on a stream whose lifecycle state does not admit it ends with 0x0206 and leaves memory as it
was: the plain forms on one that is neither Banked nor Resident, the end form too, the create form on one that is
neither Free nor Resident (Table SS-2, R51). `STATE_IN` of a Resident stream, in either form, and `STATE_OUT` of a Banked
one without a prefetch, end at once and change no byte; `STATE_IN` of a Banked stream whose prefetch is in flight waits
for it, and `STATE_OUT` in either form waits while the stream's slot is bound in an open step (Table SS-2, R54, R69). -/
def Obligations.StateDescriptorsAdmitted : Prop :=
  (∀ (s : State) (q : QueueId) (d : Desc) (e : Entry), ∀ c ∈ stateTable q,
    StateDescriptor s q d c.2.1 c.2.2 e →
    (if c.2.1 = 0x30 ∧ c.2.2 = true then e.life ≠ .free ∧ e.life ≠ .resident
      else e.life ≠ .banked ∧ e.life ≠ .resident) →
    ∃ t, exec c.1 s = .next t ∧ EndsWith t q 2 0x0206 0 ∧ t.mem = s.mem ∧
      t.obj 0x7012 6 = (s.obj 0x7012 6 + 1) % 2 ^ 32) ∧
  (∀ (s : State) (q : QueueId) (d : Desc) (e : Entry) (opc : Nat) (form : Bool), StateDescriptor s q d opc form e →
    let c : Instr := if opc = 0x30 then (if form then .stateInCreate q else .stateIn q)
      else (if form then .stateOutEnd q else .stateOut q)
    let atOnce := opc = 0x30 ∧ e.life = .resident ∨ opc = 0x31 ∧ form = false ∧ e.life = .banked ∧
      s.streams.prefetches = []
    let waits := opc = 0x30 ∧ form = false ∧ e.life = .banked ∧ e.pf = true ∨
      opc = 0x31 ∧ e.life = .resident ∧ ((s.startRun q d).header e.part e.slot).bound = true
    (atOnce → ∃ t, exec c s = .next t ∧ EndsWith t q 0 0 0 ∧ t.mem = s.mem) ∧
    (waits → ∃ t r, exec c s = .next t ∧ (t.queue q).run = some r ∧ r.phase = .waiting ∧
      r.stream = d.f 16 4 % 2 ^ 18 ∧ t.mem = s.mem))

/-- A swap-in of a Banked stream whose bank and slot the memories accept copies the banked bytes into the committed half
of the lowest free slot of the partition and leaves the stream Resident there; with no free slot it ends with 0x0201
(R67). A swap-out copies the committed half to the bank, frees the slot and leaves the stream Banked; the end form zeroes
the banked copy and the slot and leaves the stream Free with its `GEN` (R53). The create form on a Free stream gives it
the next `GEN`, the descriptor's fields, its seed and the lowest free slot; a length that R56 does not allow, or a `GEN`
at its largest value, is refused with 0x0206 (R52; which free slot, and which half of it, is log 133; a swap-in by a
partition other than the entry's log 134; what `SLOT` then reads as log 123). -/
def Obligations.SwapsCreatesAndEnds : Prop :=
  ∀ (s : State) (q : QueueId) (d : Desc) (e : Entry),
    let u := s.startRun q d
    let p := u.qPart q
    let who := u.qWho q
    let i := d.f 16 4 % 2 ^ 18
    let bank := localAddr 0 e.bank
    let h := u.header e.part e.slot
    let apart := e.bank + e.slen ≤ u.entryOff i ∨ u.entryOff i + 32 ≤ e.bank
    u.entryOff i + 32 ≤ 2 ^ 48 →
    (∀ slot, StateDescriptor s q d 0x30 false e → e.life = .banked → e.pf = false → u.freeSlot p = some slot →
      slot < 2 ^ 15 → u.opens 8 who false bank e.slen → u.storeOpen who true (u.halfOff p slot false) e.slen →
      ∃ t, exec (.stateIn q) s = .next t ∧ Dispatched s t q d ∧ EndsWith t q 0 0 0 ∧
        t.entry i = { e with life := .resident, part := p, slot := slot } ∧
        t.rdBytes (memKey 1 (u.halfOff p slot false)) e.slen = s.rdBytes (memKey 0 e.bank) e.slen ∧
        (t.header p slot).valid = true ∧ (t.header p slot).cur = false ∧ (t.header p slot).stream = i ∧
        (t.header p slot).gen = e.gen ∧ (t.header p slot).tent = false ∧ (t.header p slot).bound = false) ∧
    (StateDescriptor s q d 0x30 false e → e.life = .banked → e.pf = false → u.freeSlot p = none →
      ∃ t, exec (.stateIn q) s = .next t ∧ EndsWith t q 2 0x0201 0 ∧ t.mem = s.mem ∧
        t.obj 0x7012 1 = (s.obj 0x7012 1 + 1) % 2 ^ 32) ∧
    (StateDescriptor s q d 0x31 false e → e.life = .resident → h.bound = false →
      u.storeOpen who false (u.halfOff e.part e.slot h.cur) e.slen → u.opens 8 who true bank e.slen →
      ∃ t, exec (.stateOut q) s = .next t ∧ Dispatched s t q d ∧ EndsWith t q 0 0 0 ∧ (t.entry i).life = .banked ∧
        (t.entry i).gen = e.gen ∧ (t.entry i).part = e.part ∧ (t.entry i).bank = e.bank ∧
        (t.entry i).miss = Min.min (e.miss + h.miss) (2 ^ 32 - 1) ∧ (t.header e.part e.slot).valid = false ∧
        (apart → t.rdBytes (memKey 0 e.bank) e.slen = s.rdBytes (memKey 1 (u.halfOff e.part e.slot h.cur)) e.slen)) ∧
    (StateDescriptor s q d 0x31 true e →
      (e.life = .resident ∧ h.bound = false ∨ e.life = .banked ∧ s.streams.prefetches = []) →
      u.opens 8 who true bank e.slen →
      ∃ t, exec (.stateOutEnd q) s = .next t ∧ Dispatched s t q d ∧ EndsWith t q 0 0 0 ∧ (t.entry i).life = .free ∧
        (t.entry i).gen = e.gen ∧ (t.entry i).pf = false ∧
        (apart → t.rdBytes (memKey 0 e.bank) e.slen = zeros e.slen) ∧
        (e.life = .resident → ∀ k, memKey 1 (u.slotOff e.part e.slot) ≤ k →
          k < memKey 1 (u.slotOff e.part e.slot) + u.slotSize e.part → t.rd8 k = 0)) ∧
    (StateDescriptor s q d 0x30 true e → e.life = .free →
      let seed := u.obj (0x4010 + p) 4 + d.f 20 1 * u.seedStride p
      let slen := d.f 24 2
      (u.slenOk p slen = false ∨ e.gen = 2 ^ 32 - 1 →
        ∃ t, exec (.stateInCreate q) s = .next t ∧ EndsWith t q 2 0x0206 0 ∧ t.mem = s.mem) ∧
      (∀ slot, u.slenOk p slen = true → e.gen ≠ 2 ^ 32 - 1 → u.freeSlot p = some slot → slot < 2 ^ 15 →
        u.obj (0x4010 + p) 1 < 8 → u.opens 8 who false seed slen → u.storeOpen who true (u.halfOff p slot false) slen →
        u.opens 8 who true (localAddr 0 (d.f 32 6)) slen →
        ∃ t, exec (.stateInCreate q) s = .next t ∧ Dispatched s t q d ∧ EndsWith t q 0 0 0 ∧
          t.entry i = ({
            life := .resident, part := p, size := u.obj (0x4010 + p) 1, seed := d.f 20 1, slot := slot,
            gen := e.gen + 1, look := d.f 21 1, home := u.chip.toNat * 2 ^ 18 + i, bank := d.f 32 6, slen := slen,
            ring := d.f 40 6, rsz := d.f 22 1 } : Entry) ∧
          t.rdBytes (memKey 1 (u.halfOff p slot false)) slen = s.rdBytes (seed % 2 ^ 53) slen ∧
          (t.header p slot).valid = true ∧ (t.header p slot).stream = i ∧ (t.header p slot).gen = e.gen + 1))

/-- A `STEP_BIND` in an open step whose row list and entries the State Mover reads binds every valid row under its tag;
outside a step, or with a stream that is not Resident and unbound in the partition, it binds none and ends with 0x0206
(R60, R61; of a tag that is bound already, log 135). A `PREFETCH` runs through its due list: with none due it does nothing;
one due entry that is Banked in the partition's range starts a tentative swap-in into the lowest free slot, one that is
not is counted and passed over, and with no slot free 0x0201 is raised. When a swap-in's last write is accepted the
stream is Resident at once if its partition's `STEP_OPEN` has passed, else it is complete and waits for the next one
(R68, R69, R14; which free slot is log 133). -/
def Obligations.BindsAndPrefetches : Prop :=
  (∀ (s : State) (q : QueueId) (d : Desc),
    let u := s.startRun q d
    let p := u.qPart q
    let list := d.f 24 8
    let rows := rowIndices (s.rdBytes (list % 2 ^ 53) (4 * d.f 16 1)) (d.f 16 1)
    Accepted s q d (bindRanges d) → d.opc = 0x32 → s.matrix.ecc = [] →
    u.opens 8 (u.qWho q) false list (4 * d.f 16 1) →
    (∀ i, some i ∈ rows → u.inRange p i = true → EntryReached u q i) →
    ((u.step1 p).isOpen = true → (u.step1 p).judged = none → u.streams.tableSet = true →
      (∀ i, some i ∈ rows → u.bindable p i = true) → (rows.filterMap id).Nodup →
      ∃ t, exec (.stepBind q) s = .next t ∧ Dispatched s t q d ∧ EndsWith t q 0 0 0 ∧
        ∃ b, t.streams.batches = s.streams.batches ++ [b] ∧ b.part.val = p ∧ b.tag = BitVec.ofNat 16 d.tag ∧
          b.rows = rows.map fun r => r.map fun i => (i, (u.entry i).slot)) ∧
    ((u.step1 p).isOpen = false ∨ (∃ i, some i ∈ rows ∧ u.bindable p i = false) →
      ∃ t, exec (.stepBind q) s = .next t ∧ EndsWith t q 2 0x0206 0 ∧ t.mem = s.mem ∧ t.streams = s.streams)) ∧
  (∀ (s : State) (k : EntryId) (c : Nat) (b : Backlog), Fires s k c 0xB b → s.matrix.ecc = [] →
    let p := bits b.bits.toNat 58 56
    let arg := bits b.bits.toNat 127 96
    let who := partByte p
    let base := s.obj (0x4010 + p) 5
    let count := s.rdNat (base % 2 ^ 53) 4
    let w := s.rdNat ((base + 4) % 2 ^ 53) 4
    let e := s.entry w
    let here := w < 2 ^ 18 ∧ s.inRange p w = true ∧ s.streams.tableSet = true ∧ s.streams.clearing = false
    s.opens 8 who false base (4 + 4 * Min.min count arg) →
    (here → ∃ k, s.resolve { master := 8, who, addr := s.entryAddr w, len := 32, rd := true, wr := true } = .ok k) →
    (Min.min count arg = 0 → ∃ t, exec (.prefetch k c) s = .next t ∧ t.mem = s.mem ∧ t.streams = s.streams ∧
      t.queues = s.queues) ∧
    (Min.min count arg = 1 → (¬ here ∨ e.life ≠ .banked) → ∃ t, exec (.prefetch k c) s = .next t ∧ t.mem = s.mem ∧
      t.streams = s.streams ∧ t.obj (0x4020 + p) 6 = (s.obj (0x4020 + p) 6 + 1) % 2 ^ 32) ∧
    (Min.min count arg = 1 → here → e.life = .banked → e.pf = false → s.freeSlot p = none →
      ∃ t, exec (.prefetch k c) s = .next t ∧ t.mem = s.mem ∧ t.streams = s.streams ∧
        t.obj 0x7012 1 = (s.obj 0x7012 1 + 1) % 2 ^ 32) ∧
    (∀ slot, Min.min count arg = 1 → here → e.life = .banked → e.pf = false → s.freeSlot p = some slot → slot < 2 ^ 15 →
      s.entryOff w + 32 ≤ 2 ^ 48 →
      ∃ t f, exec (.prefetch k c) s = .next t ∧ t.streams.prefetches = s.streams.prefetches ++ [f] ∧
        f.stream = w ∧ f.slot = slot ∧ f.part.val = p ∧ f.complete = false ∧ f.opened = false ∧
        t.entry w = { e with pf := true, part := p, slot := slot } ∧ (t.header p slot).valid = true ∧
        (t.header p slot).tent = true ∧ (t.header p slot).stream = w ∧
        t.obj (0x4020 + p) 4 = (s.obj (0x4020 + p) 4 + 1) % 2 ^ 32)) ∧
  (∀ (s : State) (i : BitVec 18) (f : Prefetch), s.matrix.ecc = [] →
    s.streams.prefetches.find? (fun f => decide (f.stream = i.toNat) && !f.complete) = some f →
    let p := f.part.val
    let e := s.entry f.stream
    s.opens 8 (partByte p) false (localAddr 0 e.bank) e.slen →
    s.storeOpen (partByte p) true (s.halfOff p f.slot false) e.slen →
    (f.opened = false → ∃ t, exec (.prefetchSwapInDone i) s = .next t ∧
      t.rdBytes (memKey 1 (s.halfOff p f.slot false)) e.slen = s.rdBytes (memKey 0 e.bank) e.slen ∧
      { f with complete := true } ∈ t.streams.prefetches) ∧
    (f.opened = true → f.slot < 2 ^ 15 → s.entryOff f.stream + 32 ≤ 2 ^ 48 →
      ∃ t, exec (.prefetchSwapInDone i) s = .next t ∧
        t.rdBytes (memKey 1 (s.halfOff p f.slot false)) e.slen = s.rdBytes (memKey 0 e.bank) e.slen ∧
        t.entry f.stream = { e with life := .resident, pf := false, slot := f.slot } ∧
        { f with complete := true } ∉ t.streams.prefetches))

/-- A state record that an export writes passes the first import check, whatever the stream holds (Table SS-4, Table
SS-6). An export for a destination entry on this SX4, whose accesses are accepted, writes the record, seals the stream,
releases its slot and counts it (R72); a destination `GEN` at its largest value is refused with 0x0206 (R76). One for
another device asks it for the entry's `GEN` and waits for the answer (R256; how it goes on is log 145). An import whose
record is read and passes the checks of Table SS-6 puts the stream into Banked with the record's `GEN` and bytes; one not
newer than the entry is a duplicate and ends with status 1; one that skips a `GEN` ends with 0x0203 (R74, R75). -/
def Obligations.ExportsAndImports : Prop :=
  (∀ (e : Entry) (src dest gen mark part cepoch miss : Nat) (st : List Byte),
    e.home < 2 ^ 25 → src < 2 ^ 25 → dest < 2 ^ 25 → part < 8 → e.seed < 16 → e.slen < 2 ^ 16 → st.length = e.slen →
    let l := sealRecord (recordBody e src dest gen mark part cepoch miss st)
    recordOk l = true ∧ l.length = 128 + (e.slen + 63) / 64 * 64 ∧ slice l 64 e.slen = st ∧
      field l 20 4 = gen % 2 ^ 32 ∧ field l 24 4 = mark % 2 ^ 32 ∧ field l 30 2 = e.slen) ∧
  (∀ (s : State) (q : QueueId) (d : Desc) (e : Entry),
    let u := s.startRun q d
    let p := u.qPart q
    let who := u.qWho q
    let i := d.f 16 4 % 2 ^ 18
    let dest := d.f 20 4
    let asked := dest / 2 ^ 18 * 2 ^ 53 + u.entryOff (dest % 2 ^ 18) + 4
    let record := d.f 24 8
    let h := u.header e.part e.slot
    let half := u.halfOff e.part e.slot h.cur
    let len := 128 + (e.slen + 63) / 64 * 64
    let apart := record % 2 ^ 53 + len ≤ u.entryOff i ∨ u.entryOff i + 32 ≤ record % 2 ^ 53
    Accepted s q d none → d.opc = 0x33 → u.recOk record = true → (s.queue q).run = none → EntryReached u q i →
    u.entry i = e → (e.life = .resident ∧ h.bound = false ∨ e.life = .banked ∧ s.streams.prefetches = []) →
    u.entryOff (dest % 2 ^ 18) + 8 ≤ 2 ^ 53 → u.entryOff i + 32 ≤ 2 ^ 48 → dest < 2 ^ 25 →
    (dest / 2 ^ 18 = u.chip.toNat → u.opens 8 who false asked 4 →
      let gen := s.rdNat (asked % 2 ^ 53) 4
      (gen = 2 ^ 32 - 1 → ∃ t, exec (.exportRecord q) s = .next t ∧ EndsWith t q 2 0x0206 0 ∧ t.mem = s.mem) ∧
      (gen ≠ 2 ^ 32 - 1 → (e.life = .banked → u.opens 8 who false (localAddr 0 e.bank) e.slen) →
        (e.life = .resident → u.storeOpen who false half e.slen) → u.opens 8 who true record len →
        ∃ t cepoch, exec (.exportRecord q) s = .next t ∧ Dispatched s t q d ∧ EndsWith t q 0 0 0 ∧
          (t.entry i).life = .sealed ∧ (t.entry i).pf = false ∧
          t.obj (0x4020 + p) 7 = (s.obj (0x4020 + p) 7 + 1) % 2 ^ 32 ∧
          (e.life = .resident → (t.header e.part e.slot).valid = false ∧ cepoch = h.cepoch) ∧
          (apart → (t.entry i).gen = e.gen ∧
            t.rdBytes (record % 2 ^ 53) len = sealRecord (recordBody e (u.chip.toNat * 2 ^ 18 + i) dest (gen + 1)
              (u.partObj p 12) p cepoch (Min.min (e.miss + if e.life = .resident then h.miss else 0) (2 ^ 32 - 1))
              (s.rdBytes (if e.life = .resident then memKey 1 half else memKey 0 e.bank) e.slen))))) ∧
    (dest / 2 ^ 18 ≠ u.chip.toNat → asked % 64 ≤ 60 → (u.routePort (BitVec.ofNat 7 (dest / 2 ^ 18))).isSome = true →
      ∃ t r x, exec (.exportRecord q) s = .next t ∧ (t.queue q).run = some r ∧ r.phase = .waiting ∧ r.asks = true ∧
        t.remote = s.remote ++ [x] ∧ x.use = .unit q (BitVec.ofNat 64 asked) 4 false ∧ t.mem = s.mem)) ∧
  (∀ (s : State) (q : QueueId) (d : Desc),
    let u := s.startRun q d
    let p := u.qPart q
    let who := u.qWho q
    let record := d.f 16 8
    let head := s.rdBytes (record % 2 ^ 53) 64
    let len := field head 4 4
    let l := s.rdBytes (record % 2 ^ 53) len
    let i := field l 16 4 % 2 ^ 18
    let e := u.entry i
    let gen := field l 20 4
    let slen := field l 30 2
    Accepted s q d none → d.opc = 0x34 → record % 64 = 0 → (u.localPlace record).isSome = true →
    d.f 24 6 % 64 = 0 → d.f 32 6 % 64 = 0 → u.opens 8 who false record (Max.max 64 len) →
    len = recordLen (field head 30 2) → recordOk l = true →
    field l 16 4 / 2 ^ 18 = u.chip.toNat → field l 28 1 = p → field l 24 4 = u.partObj p 12 → EntryReached u q i →
    u.entryOff i + 32 ≤ 2 ^ 48 →
    (gen ≤ e.gen → ∃ t, exec (.importRecord q) s = .next t ∧ EndsWith t q 1 0 0 ∧ t.mem = s.mem ∧
      t.obj (0x4020 + p) 9 = (s.obj (0x4020 + p) 9 + 1) % 2 ^ 32) ∧
    (e.gen + 1 < gen → ∃ t, exec (.importRecord q) s = .next t ∧ EndsWith t q 2 0x0203 0 ∧ t.mem = s.mem) ∧
    (gen = e.gen + 1 → (e.life = .free ∨ e.life = .sealed) → u.slenOk p slen = true → field l 38 1 ≤ 64 →
      u.obj (0x4010 + p) 1 < 8 → u.opens 8 who true (localAddr 0 (d.f 24 6)) slen →
      ∃ t, exec (.importRecord q) s = .next t ∧ Dispatched s t q d ∧ EndsWith t q 0 0 0 ∧ (t.entry i).life = .banked ∧
        (t.entry i).gen = gen ∧ (t.entry i).bank = d.f 24 6 ∧ (t.entry i).slen = slen ∧ (t.entry i).part = p ∧
        t.obj (0x4020 + p) 8 = (s.obj (0x4020 + p) 8 + 1) % 2 ^ 32 ∧
        (d.f 24 6 + slen ≤ u.entryOff i ∨ u.entryOff i + 32 ≤ d.f 24 6 →
          t.rdBytes (memKey 0 (d.f 24 6)) slen = slice l 64 slen)))

/-! ### Host port -/

/-- A write of `RIDX` within what has been written moves it, one of its own value has no effect, any other is stale
and counted; a write to `HRBASE` or `HRSIZE` takes both indices back to 0, and is dropped while the queue holds an
unended descriptor; with D48 off or `PERST_N` low neither does anything (R338, R355, R362). A publish descriptor of one
valid row whose reads are accepted makes its record, with the committed scores or without (R352, R353), and writes it to
the host ring while it has room there: the record lies at `WIDX` modulo the ring's size behind its padding, and `WIDX`
passes both; without room it waits with its record, with the link down it ends with 0x0D01, and one without a valid row
writes nothing (R354, R356). A record that waits is written once it has room. -/
def Obligations.HostRingsAndPublishing : Prop :=
  (∀ (s : State) (q : QueueId) (t : W32) (v : W64),
    let r := s.ring q
    (s.hostReaches = true → s.qCons q = 7 → t ≠ r.ridx → (t - r.ridx).toNat ≤ (r.widx - r.ridx).toNat →
      exec (.ridxWrite q t) s = .next (s.setRing q { r with ridx := t })) ∧
    (s.hostReaches = true → s.qCons q = 7 → (r.widx - r.ridx).toNat < (t - r.ridx).toNat →
      exec (.ridxWrite q t) s = .next (s.setRing q { r with rstale := r.rstale + 1 })) ∧
    exec (.ridxWrite q r.ridx) s = .next s ∧
    (s.hostReaches = true → s.qCons q = 7 → (s.queue q).tail = (s.queue q).head →
      (∃ u, exec (.hostRingConfig q .base v) s = .next u ∧ u.ring q = { r with base := v, widx := 0, ridx := 0 } ∧
        ∀ x, x ≠ q.val → u.ring x = s.ring x) ∧
      (∃ u, exec (.hostRingConfig q .size v) s = .next u ∧ u.ring q = { r with size := v, widx := 0, ridx := 0 } ∧
        ∀ x, x ≠ q.val → u.ring x = s.ring x)) ∧
    (s.qCons q = 7 → (s.queue q).tail ≠ (s.queue q).head →
      exec (.hostRingConfig q .base v) s = .next s ∧ exec (.hostRingConfig q .size v) s = .next s) ∧
    (s.hostReaches = false → exec (.ridxWrite q t) s = .next s ∧
      exec (.hostRingConfig q .base v) s = .next s ∧ exec (.hostRingConfig q .size v) s = .next s)) ∧
  (∀ (s : State) (q : QueueId) (l : List Byte),
    let k := s.ring q
    let pad := k.pad l.length
    let place := BitVec.ofNat 64 ((k.widx + BitVec.ofNat 32 pad).toNat % k.size.toNat)
    let written (t : State) : Prop := EndsWith t q 0 0 0 ∧
      t.ring q = { k with widx := k.widx + BitVec.ofNat 32 pad + BitVec.ofNat 32 l.length } ∧
      t.outputs.hostWrites.getLast? = some { addr := k.base + place, data := l } ∧ t.mem = s.mem
    (∀ (d : Desc) (rows : List (Nat × Nat)), Accepted s q d (publishRanges d) → d.opc = 0x60 → s.matrix.ecc = [] →
      let u := s.startRun q d
      u.opens 13 (u.qWho q) false (d.f 32 8) (4 * d.f 21 1) →
      rows = ((List.range (d.f 21 1)).zip (rowIndices (s.rdBytes (d.f 32 8 % 2 ^ 53) (4 * d.f 21 1)) (d.f 21 1))).filterMap
        (fun e => e.2.map fun i => (e.1, i)) →
      (rows = [] → ∃ t, exec (.publish q) s = .next t ∧ EndsWith t q 0 0 0 ∧ t.mem = s.mem ∧
        t.outputs.hostWrites = s.outputs.hostWrites) ∧
      (∀ r i, rows = [(r, i)] → u.publishOpen q d r i → l = u.publishRecord q d r i →
        (k.room l.length = true → s.host.linkUp = true → s.isOn 48 = true →
          ∃ t, exec (.publish q) s = .next t ∧ Dispatched s t q d ∧ written t) ∧
        (k.room l.length = true → s.host.linkUp = false → s.isOn 48 = true →
          ∃ t, exec (.publish q) s = .next t ∧ EndsWith t q 2 0x0D01 0 ∧ t.mem = s.mem ∧
            t.outputs.hostWrites = s.outputs.hostWrites) ∧
        (k.room l.length = false →
          ∃ t r, exec (.publish q) s = .next t ∧ (t.queue q).run = some r ∧ r.phase = .waiting ∧ r.records = [l] ∧
            t.outputs.hostWrites = s.outputs.hostWrites))) ∧
    (∀ r, s.waitingRun q 0x60 = some r → r.records = [l] → r.ending.code = 0 → k.room l.length = true →
      s.host.linkUp = true → s.isOn 48 = true → ∃ t, exec (.hostRingWrite q) s = .next t ∧ written t) ∧
    (s.waitingRun q 0x60 = none → exec (.hostRingWrite q) s = .next s))

/-- An ingest batch of one record whose bytes have come is decided by Table HP-7: a record that is rejected, late or
accepted is counted once as that, an accepted one enters the frames accepted for its epoch, and the batch ends with one
record in `DETAIL`; an accepted record without a buffer waits in the order of asking. With the link down the batch ends
with 0x0D01; while the record's bytes have not all come it waits, and a batch too short for its record is refused with
0x0402 (R10, R343, R346, R347, R356; that a batch may come in parts is log 87). A returned buffer goes to the queue that
asked first: its record, judged as it is written, is counted once; a queue that is not the first, or one while no buffer
is free, gets none (R347). -/
def Obligations.Ingest : Prop :=
  (∀ (s : State) (q : QueueId) (d : Desc) (batch : List Byte),
    let u := s.startRun q d
    let rest := batch.take (d.f 24 4)
    let n := Max.max 16 (field rest 14 2)
    let l := slice rest 0 (Max.max 64 (roundUp (field rest 14 2) 64))
    Accepted s q d (ingestRanges d) → d.opc = 0x80 → s.isOn 48 = true →
    (s.host.linkUp = false →
      ∃ t, exec (.ingest q batch) s = .next t ∧ EndsWith t q 2 0x0D01 0 ∧ t.host.framesReceived = s.host.framesReceived) ∧
    (s.host.linkUp = true → rest.length < n → rest.length < d.f 24 4 →
      ∃ t r, exec (.ingest q batch) s = .next t ∧ (t.queue q).run = some r ∧ r.phase = .waiting ∧ r.rest = rest ∧
        t.host.framesReceived = s.host.framesReceived) ∧
    (s.host.linkUp = true → rest.length < n → d.f 24 4 ≤ rest.length →
      ∃ t, exec (.ingest q batch) s = .next t ∧ EndsWith t q 2 0x0402 0 ∧
        t.host.framesReceived = s.host.framesReceived) ∧
    (s.host.linkUp = true → d.f 28 4 = 1 → n ≤ rest.length → u.frameOpen q l →
      (u.verdict q l ≠ .accepted → ∃ t, exec (.ingest q batch) s = .next t ∧ Dispatched s t q d ∧ EndsWith t q 0 0 1 ∧
        FrameCounted s t (u.verdict q l) ∧ t.host.accepted = s.host.accepted ∧ t.mem = s.mem) ∧
      (u.verdict q l = .accepted → u.bufferReady q l false → u.poolOpen q l →
        ∃ t, exec (.ingest q batch) s = .next t ∧ Dispatched s t q d ∧ EndsWith t q 0 0 1 ∧ FrameCounted s t .accepted ∧
          t.host.accepted = s.host.accepted ++ [(field l 0 4, BitVec.ofNat 48 (field l 4 6))]) ∧
      (u.verdict q l = .accepted → ¬ u.bufferReady q l false →
        ∃ t r, exec (.ingest q batch) s = .next t ∧ (t.queue q).run = some r ∧ r.phase = .waiting ∧
          q.val ∈ t.host.waiters ∧ t.host.framesReceived = s.host.framesReceived))) ∧
  (∀ (s : State) (q : QueueId),
    ((s.host.waiters.head? ≠ some q.val ∨ s.freeBuffers = []) → exec (.bufferGrant q) s = .next s) ∧
    (∀ r,
      let l := slice r.rest 0 (Max.max 64 (roundUp (field r.rest 14 2) 64))
      s.host.waiters.head? = some q.val → s.freeBuffers ≠ [] → (s.queue q).run = some r → r.left = 1 →
      Max.max 16 (field r.rest 14 2) ≤ r.rest.length → s.frameOpen q l →
      (s.verdict q l = .accepted → s.poolOpen q l) →
      ∃ t, exec (.bufferGrant q) s = .next t ∧ EndsWith t q 0 0 (r.ending.detail.toNat + 1) ∧
        q.val ∉ t.host.waiters ∧ FrameCounted s t (s.verdict q l)))

/-- The link lost by failure is down with 0x0D01, a power-management transition or a link that is down already changes
nothing; it comes up with its width and speed; `PERST_N` takes it down and resets the host port's registers, a
function-level reset resets them (that both reset the same registers is log 90) with the link as it was (R338, R356,
R358). A host DMA error stops the descriptor that has the request outstanding, or that is about to read its batch: its
queue's run is over with 0x0D02, the fault is raised, and no record is left to write (R357, R359). -/
def Obligations.LinkResetsAndDmaErrors : Prop :=
  (∀ (s : State) (w g : BitVec 4),
    (s.host.linkUp = true → ∃ t, exec (.pcieLinkDown .failure) s = .next t ∧ t.host.linkUp = false ∧
      t.obj 0x3500 3 = 0 ∧ t.obj 0x3500 4 = 0 ∧ t.obj 0x701D 1 = (s.obj 0x701D 1 + 1) % 2 ^ 32 ∧ t.mem = s.mem) ∧
    (s.host.linkUp = false → exec (.pcieLinkDown .failure) s = .next s) ∧
    exec (.pcieLinkDown .powerManagement) s = .next s ∧
    (∃ t, exec (.pcieLinkUp w g) s = .next t ∧ t.host.linkUp = true ∧ t.obj 0x3500 3 = 2 ∧
      t.obj 0x3500 4 = w.toNat * 16 + g.toNat ∧ t.mem = s.mem) ∧
    (∃ t, exec .perstN s = .next t ∧ t.host.linkUp = false ∧ t.host.bar4 = 0 ∧ t.host.msixTable = [] ∧
      t.kpp.respValid = false ∧ t.power.perstLow = true ∧ t.mem = s.mem) ∧
    (∃ t, exec .functionLevelReset s = .next t ∧ t.host.linkUp = s.host.linkUp ∧ t.host.bar4 = 0 ∧
      t.host.msixTable = [] ∧ t.host.msixPending = 0 ∧ t.host.msixEnable = false ∧ t.kpp.respValid = false ∧
      t.mem = s.mem)) ∧
  (∀ (s : State) (q : QueueId) (e : HostError) (r : Run),
    (s.waitingRun q 0x80 = some r → ∃ t, exec (.hostDmaError q e) s = .next t ∧
      EndsWith t q 2 0x0D02 r.ending.detail.toNat ∧ q.val ∉ t.host.waiters ∧ t.mem = s.mem ∧
      t.obj 0x701D 2 = (s.obj 0x701D 2 + 1) % 2 ^ 32) ∧
    (s.waitingRun q 0x60 = some r → ∃ t x, exec (.hostDmaError q e) s = .next t ∧
      (t.queue q).run = some x ∧ x.phase = .finished ∧ x.ending.code = 0x0D02 ∧ x.records = [] ∧ t.mem = s.mem ∧
      t.obj 0x701D 2 = (s.obj 0x701D 2 + 1) % 2 ^ 32) ∧
    (∀ d, Accepted s q d (ingestRanges d) → d.opc = 0x80 → ∃ t, exec (.hostDmaError q e) s = .next t ∧
      EndsWith t q 2 0x0D02 0 ∧ t.mem = s.mem ∧ t.obj 0x701D 2 = (s.obj 0x701D 2 + 1) % 2 ^ 32))

/-! ### Matrix -/

/-- A port grants, at its next arbitration, the waiting request of the highest effective QoS that may be granted; of alert
stores of several beds that came in one cycle the lowest bed's goes first (R235, R236, R315). A read answers the bytes at
the place that R229 to R231 name, a write stores its bytes there and no others, an atomic answers the old value and stores
the new one of Table TD-7; an error response leaves memory as it was; a read of register space gives its bytes (R96, R230,
R234, R252). A request for another device goes out on the port of its route with a tag of its own, or gets 0x0A01 (R256,
R264). With nothing to grant the port only takes its time. -/
def Obligations.PortGrants : Prop :=
  ∀ (s : State) (p : TargetPort),
    let u := s.atPort p
    (u.winner p = none → exec (.portGrant p) s = .next u) ∧
    (∀ r, u.winner p = some r → r ∈ s.matrix.requests ∧ r.port = p ∧
      ∀ x ∈ u.candidates p, u.effQos x ≤ u.effQos r ∨
        (r.isAlert = true ∧ ∃ y ∈ u.candidates p, y.isAlert = true ∧ y.arrived = r.arrived ∧ r.master < y.master ∧
          u.effQos x ≤ u.effQos y)) ∧
    (∀ r, u.winner p = some r → p.target ≠ 7 → s.matrix.ecc = [] →
      let v := u.seenBy r
      let bytes (k : Nat) := s.rdBytes k r.len
      let kept (t : State) (k : Nat) : Prop := ∀ x, (x < k ∨ k + r.len ≤ x) → t.rd8 x = s.rd8 x
      (∀ k, r.op = .read → v.reaches r.asks k →
        ∃ t, exec (.portGrant p) s = .next t ∧ Granted s t r (.data (bytes k)) ∧ t.mem = s.mem) ∧
      (∀ l k, r.op = .write l → l.length = r.len → v.reaches r.asks k → (regionOf r.addr.toNat = 1 → r.onePiece) →
        ∃ t, exec (.portGrant p) s = .next t ∧ Granted s t r (.data []) ∧ t.rdBytes k r.len = l ∧ kept t k) ∧
      (∀ o x y k, r.op = .atomic o x y → v.resolve r.asks = .ok (.mem k) → atomicRegion (k / 2 ^ 48) = true →
        let old := leNat (bytes k)
        let m := 2 ^ (8 * r.len)
        ∃ t, exec (.portGrant p) s = .next t ∧ Granted s t r (.data (bytes k)) ∧ kept t k ∧
          leNat (t.rdBytes k r.len) = (match o with
            | .add => (old + x.toNat) % m
            | .swap => x.toNat % m
            | .cas => if old = y.toNat % m then x.toNat % m else old)) ∧
      (∀ d, r.onePiece → (∀ l, r.op = .write l → l.length = r.len) → v.resolve r.asks = .error d → d.1 < 2 ^ 16 →
        ∃ t, exec (.portGrant p) s = .next t ∧ Granted s t r (.error (BitVec.ofNat 16 d.1)) ∧ t.mem = s.mem) ∧
      (∀ o, r.op = .read → r.onePiece → v.resolve r.asks = .ok (.reg o) → regOk o r.len = true → o < 0x00150000 →
        ∃ t, exec (.portGrant p) s = .next t ∧ t.mem = s.mem ∧
          Granted s t r (.data ((List.range r.len).map fun i => u.regByte (o + i))))) ∧
    (∀ r, u.winner p = some r → p.target = 7 →
      let chip := BitVec.ofNat 7 (bits r.addr.toNat 59 53)
      (∀ l, s.routePort chip = some l → ∃ t x, exec (.portGrant p) s = .next t ∧
        (∀ y ∈ t.matrix.requests, y.id ≠ r.id) ∧ t.remote = s.remote ++ [x] ∧ x.use = .request r.id r.origin ∧
        x.port = l ∧ x.dest = chip ∧ x.addr = r.addr ∧ t.mem = s.mem ∧
        SentOrQueued s t l (s.packetOf chip r.part r.qos x.tag r.addr r.len r.op)) ∧
      (s.routePort chip = none → ∃ t, exec (.portGrant p) s = .next t ∧ Granted s t r (.error 0x0A01) ∧ t.mem = s.mem ∧
        t.obj 0x701A 1 = (s.obj 0x701A 1 + 1) % 2 ^ 32))

/-- A BAR4 access of one piece goes to the matrix as a request of M10 for the window's partition, or answers all ones while
the window is disabled, and does nothing while it does not reach the SX4 (R236, R338, R340, R362); a window is written by
the Keeper alone with the partition lock clear and only if it stays consistent, else there is 0x0802 (R232, R233); the
register slices are written in CONFIG with nothing outstanding, through the dictionary or register space (R241); a
write-back cleans every line but those dirtied since it started, which are clean or dirty (R244; which is log 93);
training in CONFIG sets the capacity or raises 0x0903 for each subchannel that fails (R250). An alert posted by the cyclic
partition enters the ring with its word's reserved bits zero, or is counted when the ring is full (R315, R316); a register
write reaches what it names: the BAR4 window register, a doorbell in a BAR2 page, a master's QoS, the MSI-X enables, and a
host read of BAR0, BAR2 or the configuration space is answered (R234, R337, R339 to R342; the layout of the latter is log
147). -/
def Obligations.MatrixControlAndRegisters : Prop :=
  (∀ (s : State),
    (∀ (off : W32) (h : HostAccess) (n : Nat) (op : Op),
      (h = .read n ∧ op = .read ∨ ∃ l, h = .write l ∧ op = .write l ∧ l.length = n) → s.hostReaches = true → 1 ≤ n →
      off.toNat % 1024 + n ≤ 1024 →
      (s.host.bar4.toNat.testBit 7 = false → ∃ t, exec (.bar4Access off h) s = .next t ∧ t.mem = s.mem ∧
        t.matrix = s.matrix ∧ (h = .read n →
          t.outputs.hostReplies = s.outputs.hostReplies ++ [.data (List.replicate n 0xFF)])) ∧
      (s.host.bar4.toNat.testBit 7 = true → ∃ t r, exec (.bar4Access off h) s = .next t ∧
        t = { s with matrix := { s.matrix with
          requests := s.matrix.requests ++ [r], nextId := s.matrix.nextId + 1 } } ∧
        r.addr = BitVec.ofNat 64 (s.host.bar4.toNat / 2 ^ 32 % 2 ^ 29 * 2 ^ 32 + off.toNat) ∧ r.len = n ∧ r.op = op ∧
        r.master.val = 10 ∧ r.part.val = s.host.bar4.toNat % 8 ∧ r.origin = .host ∧ r.qos = s.obj 0x3200 (0x42 + 10) ∧
        r.port = s.portOf 10 r.addr.toNat ∧
        (r.held = false → r.arrived = s.cycle + s.sliceDelay 10 r.port.target.val))) ∧
    (∀ (off : W32) (h : HostAccess), s.hostReaches = false → exec (.bar4Access off h) s = .next s) ∧
    (∀ (m : Master) (w : Fin 64) (o : Fin 32) (l : List Byte),
      let l' := l.take (32 - o.val)
      let v := windowMask (patchNat (s.window w.val) 32 o.val l')
      l ≠ [] → s.spaceOpen m (masterWho m) (0x00120000 + 32 * w.val + o.val) l'.length →
      (m.val = 11 → s.locked = false → windowConsistent v = true →
        exec (.windowWrite m w o l) s = .next (s.setObj 0x3200 (w.val + 1) v)) ∧
      ((m.val ≠ 11 ∨ s.locked = true ∨ windowConsistent v = false) →
        ∃ t, exec (.windowWrite m w o l) s = .next t ∧ t.matrix.lastError.code = 0x0802 ∧ t.mem = s.mem ∧
          ∀ x, x < 64 → t.window x = s.window x)) ∧
    (∀ (l : List Byte) (m : Master), s.keeperServes = true →
      (l.length = 18 → s.power.dev = .config → s.busyMasters = [] →
        ∃ t, exec (.registerSlicesWrite true m 0 l) s = .next t ∧ t.obj 0x3200 0x5B = leNat l % 2 ^ 140 ∧
          t.kpp.result = 0 ∧ t.mem = s.mem) ∧
      (l.length = 18 → (s.power.dev ≠ .config ∨ s.busyMasters ≠ []) →
        exec (.registerSlicesWrite true m 0 l) s = .next { s with kpp := { s.kpp with result := 0x09 } }) ∧
      (l.length ≠ 18 →
        exec (.registerSlicesWrite true m 0 l) s = .next { s with kpp := { s.kpp with result := 0x05 } })) ∧
    (∀ (m : Master) (o : Fin 18) (x : Byte), s.spaceOpen m (masterWho m) (0x00121020 + o.val) 1 →
      (s.slicesOpen m.val = true → exec (.registerSlicesWrite false m o [x]) s =
        .next (s.setObj 0x3200 0x5B (patchNat (s.obj 0x3200 0x5B) 18 o.val [x] % 2 ^ 140))) ∧
      (s.slicesOpen m.val = false → ∃ t, exec (.registerSlicesWrite false m o [x]) s = .next t ∧
        t.matrix.lastError.code = 0x0802 ∧ t.obj 0x3200 0x5B = s.obj 0x3200 0x5B ∧ t.mem = s.mem)) ∧
    exec .cacheWriteBackStart s = .next { s with matrix := { s.matrix with writeBack := true } } ∧
    (s.matrix.writeBack = true → ∃ t, exec .cacheWriteBackDone s = .next t ∧ t.matrix.writeBack = false ∧
      t.mem = s.mem ∧ ∀ k, match s.cacheWay k with
        | none => t.cacheWay k = none
        | some c => ∃ d, t.cacheWay k = some { c with dirty := d, late := false } ∧ (c.late = false → d = false)) ∧
    (s.matrix.writeBack = false → exec .cacheWriteBackDone s = .next s) ∧
    (∀ pass : BitVec 16, s.power.dev ≠ .config → exec (.dramTraining pass) s = .next s) ∧
    (∀ pass : BitVec 16, s.power.dev = .config →
      let sub := (List.range 16).filter fun i => (s.obj 0x3400 1).testBit (i / 4)
      ((∀ i ∈ sub, pass.toNat.testBit i = true) → ∃ t, exec (.dramTraining pass) s = .next t ∧
        t.obj 0x3400 5 = sub.length * s.obj 0x3400 3 * 2 ^ 27 ∧ t.faults = s.faults ∧ t.mem = s.mem) ∧
      ((∃ i ∈ sub, pass.toNat.testBit i = false) → ∃ t, exec (.dramTraining pass) s = .next t ∧
        t.obj 0x3400 5 = 0 ∧ t.power.dev = .fault ∧ t.mem = s.mem ∧
        t.obj 0x7019 3 = (s.obj 0x7019 3 + (sub.filter fun i => !pass.toNat.testBit i).length) % 2 ^ 32))) ∧
  (∀ (s : State),
    (∀ (th : Thread) (w : W64), s.contextPart (Thread.num th) = s.obj 0x6002 3 → s.contextPart (Thread.num th) < 8 →
      s.resolve { master := th.bed.val, who := partByte (s.contextPart (Thread.num th)), id := th.ctx.val,
                  addr := localAddr 3 0x00150000, len := 8, rd := false, wr := true } = .ok (.reg 0x00150000) →
      ∃ t, exec (.alertPost th 8 w) s = .next t ∧ t.alerts.nextSeq = s.alerts.nextSeq + 1 ∧ t.mem = s.mem ∧
        t.contexts = s.contexts ∧ t.faults = s.faults ∧
        (s.alerts.ring.length < 256 → ∃ a, t.alerts.ring = s.alerts.ring ++ [a] ∧ a.seq = s.alerts.nextSeq ∧
          a.word = w &&& 0xFFFF03FFFFFFFFFF ∧ a.part.val = s.contextPart (Thread.num th) ∧ a.epoch = s.epoch) ∧
        (256 ≤ s.alerts.ring.length → t.alerts.ring = s.alerts.ring ∧
          t.alerts.notLatched = s.alerts.notLatched + 1)) ∧
    (∀ l : List Byte, l.length = 8 → s.hostReaches = true → s.locked = false →
      ∃ t, exec (.registerWrite .bar0 0x2000 l) s = .next t ∧ t.host.bar4.toNat % 8 = leNat l % 8 ∧
        t.host.bar4.toNat.testBit 7 = (leNat l).testBit 7 ∧
        t.host.bar4.toNat / 2 ^ 32 = leNat l / 2 ^ 32 % 2 ^ 29 ∧ t.mem = s.mem ∧ t.queues = s.queues) ∧
    (∀ (q : QueueId) (l : List Byte), l.length = 4 →
      exec (.registerWrite .bar2 (q.val * 2 ^ 16) l) s = exec (.doorbell q 0 4 (BitVec.ofNat 64 (leNat l))) s) ∧
    (∀ (m : Master) (b : Byte), s.spaceOpen 11 deviceWide (0x00121000 + m.val) 1 →
      exec (.registerWrite (.region3 11 none) (0x00121000 + m.val) [b]) s =
        .next (s.setObj 0x3200 (0x42 + m.val) (b.toNat % 16))) ∧
    (∀ x y : Byte, s.hostReaches = true → ∃ t, exec (.registerWrite (.config .msixControl) 0 [x, y]) s = .next t ∧
      t.host.msixEnable = y.toNat.testBit 7 ∧ t.host.functionMask = y.toNat.testBit 6 ∧ t.mem = s.mem) ∧
    (∀ (off n : Nat) (f : ConfigField),
      let reads := [(RegSpace.bar0Read n, (List.range n).map fun i => s.bar0At (off + i)),
        (.bar2Read n, (List.range n).map fun i => s.bar2At (off + i)),
        (.configRead f, natLe (s.configValue f) (configBytes f))]
      ∀ e ∈ reads,
        (s.hostReaches = true → exec (.registerWrite e.1 off []) s = .next { s with outputs := { s.outputs with
          hostReplies := s.outputs.hostReplies ++ [.data e.2] } }) ∧
        (s.hostReaches = false → exec (.registerWrite e.1 off []) s = .next s)))

/-! ### Trellis -/

/-- A packet out of order acts on nothing: a duplicate's flits are counted in object 0x7051 and a control flit restates
the counts; one beyond a gap is dropped, which the first time sends one `NAK` with `ACK` = E; a port that is not UP takes
none (R258). One for another chip leaves on the port of its route, its flits from E on accepted (R258, R263); without a
route a request is answered with 0x0A01, anything else is counted in 0x7054:01 (R264; when a control flit goes out is log
144). -/
def Obligations.PacketsInOrderAndForwarded : Prop :=
  ∀ (s : State) (l : Port) (q : BitVec 12) (p : Packet) (m : StepMsg) (k : KppPacket) (a : AuditMsg),
    ∀ e ∈ packetRows l q p m k a,
      let c := s.link l
      let back := (c.rxSeq - q).toNat
      let flit (nak : Bool) : ControlFlit := { ack := c.rxSeq, nak, returned := c.returned }
      let sends (t : State) (f : ControlFlit) : State :=
        { t with outputs := { t.outputs with controls := t.outputs.controls ++ [(l.val, f)] } }
      (c.state ≠ .up → exec e.1 s = .next s) ∧
      (c.state = .up → e.2.flits ≤ back → back ≤ 2048 →
        exec e.1 s = .next (sends (s.bump 0x7051 (l.val + 1) e.2.flits) (flit false))) ∧
      (c.state = .up → e.2.flits ≤ back → 2048 < back → c.gap = false →
        exec e.1 s = .next (sends (s.setLink l { c with gap := true }) (flit true))) ∧
      (c.state = .up → e.2.flits ≤ back → 2048 < back → c.gap = true → exec e.1 s = .next s) ∧
      (∀ d, c.state = .up → back < e.2.flits → e.2.dest = some d → d ≠ s.chip →
        (∀ x, s.routePort d = some x → ∃ t, exec e.1 s = .next t ∧ SentOrQueued s t x e.2 ∧ t.mem = s.mem ∧
          t.remote = s.remote ∧ t.streams = s.streams ∧ t.kpp = s.kpp ∧
          (t.link l).rxSeq = c.rxSeq + BitVec.ofNat 12 (e.2.flits - back)) ∧
        (s.routePort d = none → e.2.request = none → ∃ t, exec e.1 s = .next t ∧ t.mem = s.mem ∧
          t.streams = s.streams ∧ t.obj 0x7054 1 = (s.obj 0x7054 1 + 1) % 2 ^ 32) ∧
        (s.routePort d = none → ∀ r x b, e.2.request = some r → s.routePort r.src = some x →
          e.2.answerTo s.chip (.error 0x0A01) = some b → ∃ t, exec e.1 s = .next t ∧ SentOrQueued s t x b ∧
            t.mem = s.mem ∧ t.obj 0x701A 1 = (s.obj 0x701A 1 + 1) % 2 ^ 32))

/-- A request packet in order for this SX4 is served by M9 under its partition and answered: reads give the bytes,
writes store theirs and no others, an atomic gives the old value; without a route the answer is counted in 0x7054:01
(R231, R256, R264). With M9's domain not on the request does nothing (R362). -/
def Obligations.RequestPacketsServed : Prop :=
  ∀ (s : State) (l : Port) (q : BitVec 12) (p : Packet) (k : Nat), s.inOrder l q →
    let answered (t : State) (b : PacketBody) : Prop :=
      (∀ x, s.routePort p.src = some x → SentOrQueued s t x b) ∧
      (s.routePort p.src = none → t.obj 0x7054 1 = (s.obj 0x7054 1 + 1) % 2 ^ 32)
    let bytes := s.rdBytes k p.len.toNat
    (s.arrives p true false k → ∀ e ∈ [(Instr.rdReq l q p), .bulkRd l q p], ∃ t, exec e s = .next t ∧
      answered t (.rdRsp (replyPacket p s.chip bytes)) ∧ t.mem = s.mem) ∧
    (s.arrives p false true k → p.data.length = p.len.toNat → ∀ e ∈ [(Instr.wrReq l q p), .bulkWr l q p],
      ∃ t, exec e s = .next t ∧ answered t (.wrRsp (replyPacket p s.chip [])) ∧ t.rdBytes k p.len.toNat = p.data ∧
        ∀ x, (x < k ∨ k + p.len.toNat ≤ x) → t.rd8 x = s.rd8 x) ∧
    (s.arrives p true true k → atomicRegion (k / 2 ^ 48) = true → ∃ t, exec (.atReq l q p) s = .next t ∧
      answered t (.atRsp (replyPacket p s.chip bytes)) ∧
      leNat (t.rdBytes k p.len.toNat) =
        atomicNew p.atomic p.len.toNat (leNat bytes) p.operand.toNat p.compare.toNat ∧
      ∀ x, (x < k ∨ k + p.len.toNat ≤ x) → t.rd8 x = s.rd8 x) ∧
    (p.dest = s.chip → s.isOn 1 = false →
      ∀ e ∈ [(Instr.rdReq l q p), .wrReq l q p, .atReq l q p, .bulkRd l q p, .bulkWr l q p],
        ∃ t, exec e s = .next t ∧ t.mem = s.mem ∧ t.outputs.links = s.outputs.links)

/-- A response in order reaches the request that waits under its tag, one for none is counted in 0x7054:02; a remote
timeout gives the request 0x0A04, raises it and keeps the tag unused for twice the timeout (R256, R264, R266,
R280). -/
def Obligations.ResponsesAndTimeouts : Prop :=
  ∀ (s : State) (l : Port) (q : BitVec 12) (p : Packet) (tag : BitVec 16) (x : RemoteRequest) (id : Nat) (th : Thread),
    let answers (t : State) (r : Reply) : Prop := t.matrix.responses = s.matrix.responses ++
      [{ id, origin := .thread th, target := 7, reply := r }]
    (s.inOrder l q → p.dest = s.chip → ∀ e ∈ [(Instr.rdRsp l q p), .wrRsp l q p, .atRsp l q p],
      (s.remote.find? (fun y => decide (y.tag = p.tag)) = some x → x.use = .request id (.thread th) →
        ∃ t, exec e s = .next t ∧ (∀ y ∈ t.remote, y.tag ≠ p.tag) ∧ t.mem = s.mem ∧
          answers t (if p.error then .error p.len else .data p.data)) ∧
      ((∀ y ∈ s.remote, y.tag ≠ p.tag) → ∃ t, exec e s = .next t ∧ t.mem = s.mem ∧ t.matrix = s.matrix ∧
        t.obj 0x7054 2 = (s.obj 0x7054 2 + 1) % 2 ^ 32)) ∧
    (s.remote.find? (fun y => decide (y.tag = tag)) = some x → x.use = .request id (.thread th) →
      ∃ t, exec (.remoteTimeout tag) s = .next t ∧ (∀ y ∈ t.remote, y.tag ≠ tag) ∧ t.mem = s.mem ∧
        (tag, s.cycle + 2 * s.obj 0x3300 5 * 1000) ∈ t.retired ∧ answers t (.error 0x0A04) ∧
        Raised s t 0x0A04 (partByte x.part) x.port x.addr.toNat x.dest.toNat 0) ∧
    ((∀ y ∈ s.remote, y.tag ≠ tag) → exec (.remoteTimeout tag) s = .next s)

/-- Ports through their states: enabling trains, with the port's domain on, training leads to INIT or times out; in INIT the
port has sent its identity, its buffer sizes and 64 delay probes, echoes each probe of the far side once and takes each
echo of its own once; with the far side's identity and sizes and 64 of both it is UP with full credits, sequence numbers
0 and its delay, and its own chip ID as the far side's raises 0x0A01; a loss or a cleared enable leads to DOWN, an enabled
port in DOWN trains again, and a request of this SX4 in the discarded buffer gets 0x0A01 (R267 to R270, Table TL-5; where
a cleared enable leads, and the neighbour byte then, are log 34; when probes and echoes go out is log 144). A control
flit at a port in UP: `ACK` takes exactly the flits before it out of the replay buffer and returned counts give their
credits back; a `NAK` or a timeout resends every unacknowledged flit in order, a repeated `NAK` changes nothing; a ninth
replay without `ACK` advancing takes the port DOWN with 0x0A02; an AUDIT is sent with the counts of its moment and judged
against the far side's; an uncorrectable codeword is counted (R254, R255, R258 to R262; that it is the ninth replay is
log 35). -/
def Obligations.PortStatesAndReplay : Prop :=
  (∀ (s : State) (l : Port),
    let k := s.link l
    exec (.codewordUncorrectable l) s = .next (s.bump 0x7052 (l.val + 1)) ∧
    (k.state = .training → ∃ t, exec (.linkTrained l) s = .next t ∧ t.mem = s.mem ∧
      t.link l = { state := .init, asked := probeCounts s.cycle } ∧
      t.outputs.controls = s.outputs.controls ++ (probeCounts s.cycle).map fun c => (l.val,
        { ack := 0, nak := false, returned := [0, 0, 0, 0], init := some (s.chip, BitVec.ofNat 3 l.val),
          sizes := [96, 96, 288, 32], probe := some c })) ∧
    (k.state ≠ .training → exec (.linkTrained l) s = .next s ∧ exec (.trainingTimeout l) s = .next s) ∧
    (k.state ≠ .up → exec (.lockLoss l) s = .next s ∧ exec (.replayTimeout l) s = .next s ∧
      exec (.auditSend l) s = .next s) ∧
    (s.holdsNoOwn l → ∀ e ∈ [(Instr.trainingTimeout l, LinkState.training), (.lockLoss l, .up)], k.state = e.2 →
      ∃ t, exec e.1 s = .next t ∧ t.link l = { state := .down } ∧ t.mem = s.mem ∧ t.remote = s.remote ∧
        bits (t.obj 0x3300 3) (8 * l.val + 7) (8 * l.val) = 0xFF ∧
        t.obj 0x701A 1 = (s.obj 0x701A 1 + 1) % 2 ^ 32 ∧
        ∀ x, x ≠ l.val → (t.link x).state = (s.link x).state ∧ (t.link x).replay = (s.link x).replay) ∧
    (∀ y tag x id th, k.state = .up → k.replay = [y] → k.queued = [] → s.ownTag y.body = some tag →
      s.remote.find? (fun z => decide (z.tag = tag)) = some x → x.use = .request id (.thread th) →
      ∃ t, exec (.lockLoss l) s = .next t ∧ (t.link l).state = .down ∧ (∀ z ∈ t.remote, z.tag ≠ tag) ∧
        t.matrix.responses = s.matrix.responses ++
          [{ id, origin := .thread th, target := 7, reply := .error 0x0A01 }] ∧
        t.obj 0x701A 1 = (s.obj 0x701A 1 + 1) % 2 ^ 32) ∧
    (k.state = .down → (s.obj 0x3300 1).testBit l.val = true → s.holdsNoOwn l →
      ∃ t, exec (.retrain l) s = .next t ∧ t.link l = { state := .training } ∧ t.faults = s.faults ∧ t.mem = s.mem) ∧
    ((k.state ≠ .down ∨ (s.obj 0x3300 1).testBit l.val = false) → exec (.retrain l) s = .next s) ∧
    (∀ v : BitVec 8, s.keeperServes = true → (∀ x, s.holdsNoOwn x) → ∃ t, exec (.portEnable v) s = .next t ∧
      t.obj 0x3300 1 = v.toNat ∧ t.kpp.result = 0 ∧ t.mem = s.mem ∧ t.faults = s.faults ∧
      (t.link l).state = (if v.toNat.testBit l.val = (s.obj 0x3300 1).testBit l.val then k.state
        else if v.toNat.testBit l.val then (if s.isOn (46 + l.val / 4) then .training else k.state)
        else if k.state = .up then .down
        else if k.state = .training ∨ k.state = .init then .disabled else k.state)) ∧
    (∀ f : ControlFlit, k.state ≠ .up → k.state ≠ .init →
      exec (.controlFlit l f) s = .next (s.advance f.arrival)) ∧
    (∀ (f : ControlFlit) (c h : Nat), k.state = .init → k.peer = none → f.init = none → f.sizes = [] →
      (f.probe = none → f.echoes = [(c, h)] → c ∈ k.asked → (∀ x ∈ k.probes, x.1 ≠ c) →
        ∃ t, exec (.controlFlit l f) s = .next t ∧ t.mem = s.mem ∧ t.outputs = s.outputs ∧
          t.link l = { k with probes := k.probes ++ [(c, f.arrival - c - h)] }) ∧
      (f.probe = some c → f.echoes = [] → c ∉ k.heard → ∃ t, exec (.controlFlit l f) s = .next t ∧ t.mem = s.mem ∧
        t.link l = { k with heard := k.heard ++ [c] } ∧ t.outputs.controls = s.outputs.controls ++
          [(l.val, { ack := k.rxSeq, nak := false, returned := k.returned, echoes := [(c, 0)] })]) ∧
      (f.probe = some c → f.echoes = [] → c ∈ k.heard → ∃ t, exec (.controlFlit l f) s = .next t ∧ t.mem = s.mem ∧
        t.link l = k ∧ t.outputs = s.outputs)) ∧
    (∀ (f : ControlFlit) c n, k.state = .init → (f.init <|> k.peer) = some (c, n) →
      (c = s.chip → k.peer = none → ∃ t, exec (.controlFlit l f) s = .next t ∧ (t.link l).state = .init ∧
        t.mem = s.mem ∧ t.obj 0x701A 1 = (s.obj 0x701A 1 + 1) % 2 ^ 32) ∧
      (let probes := (k.takeEchoes f).probes
       c ≠ s.chip → (if f.sizes = [] then k.peerSizes else f.sizes).length = 4 → 64 ≤ probes.length →
       64 ≤ k.heard.length → ((probes.take 64).map (·.2)).sum % 128 ≠ 64 →
       ∃ t, exec (.controlFlit l f) s = .next t ∧ t.link l = { state := .up, peer := some (c, n) } ∧ t.mem = s.mem ∧
        t.obj 0x3300 (0x10 + l.val) = (((probes.take 64).map (·.2)).sum + 64) / 128 ∧
        bits (t.obj 0x3300 3) (8 * l.val + 7) (8 * l.val) = c.toNat))) ∧
  (∀ (s : State) (l : Port) (q : BitVec 12) (f : ControlFlit) (a : AuditMsg), (s.link l).state = .up →
    let k := s.link l
    let n := (f.ack - k.ack).toNat
    let resent := s.outputs.links ++ k.replay.map (fun x => (l.val, x))
    (f.nak = false → k.queued = [] → ∃ t, exec (.controlFlit l f) s = .next t ∧ (t.link l).txSeq = k.txSeq ∧
      t.outputs = s.outputs ∧ t.mem = s.mem ∧
      (1 ≤ n → n ≤ k.unacked → (t.link l).ack = f.ack ∧ (t.link l).replays = 0 ∧
        replayFlits (t.link l).replay = (replayFlits k.replay).drop n) ∧
      ((n = 0 ∨ k.unacked < n) → (t.link l).replay = k.replay ∧ (t.link l).replays = k.replays) ∧
      ∀ v, v < 4 → vcGet (t.link l).credits v = vcGet k.credits v + (f.returned.getD v 0 - k.seen.getD v 0).toNat) ∧
    (f.nak = true → n = 0 → k.queued = [] → k.replay ≠ [] →
      (k.lastNak ≠ some f.ack → k.replays < 8 → ∃ t, exec (.controlFlit l f) s = .next t ∧ t.outputs.links = resent ∧
        (t.link l).lastNak = some f.ack ∧ (t.link l).replays = k.replays + 1 ∧ t.mem = s.mem ∧
        t.obj 0x7050 (l.val + 1) = (s.obj 0x7050 (l.val + 1) + 1) % 2 ^ 32) ∧
      (k.lastNak = some f.ack → ∃ t, exec (.controlFlit l f) s = .next t ∧ t.outputs = s.outputs ∧
        (t.link l).replays = k.replays ∧ t.mem = s.mem)) ∧
    (k.replay = [] → exec (.replayTimeout l) s = .next s) ∧
    (k.replay ≠ [] → k.replays < 8 → ∃ t, exec (.replayTimeout l) s = .next t ∧ t.outputs.links = resent ∧
      t.link l = { k with replays := k.replays + 1 } ∧
      t.obj 0x7050 (l.val + 1) = (s.obj 0x7050 (l.val + 1) + 1) % 2 ^ 32 ∧ t.mem = s.mem) ∧
    (k.replay ≠ [] → 8 ≤ k.replays → s.holdsNoOwn l → ∃ t, exec (.replayTimeout l) s = .next t ∧
      t.link l = { state := .down } ∧ t.obj 0x701A 2 = (s.obj 0x701A 2 + 1) % 2 ^ 32 ∧ t.mem = s.mem) ∧
    (k.canSend (.audit { held := [], returned := [] }) = true → k.queued = [] →
      ∃ t x, exec (.auditSend l) s = .next t ∧ (t.link l).replay = k.replay ++ [x] ∧ x.seq = k.txSeq ∧
        x.body = .audit { held := (k.credits.set 3 (vcGet k.credits 3 - 1)).map (BitVec.ofNat 16), returned := k.seen } ∧
        (t.link l).txSeq = k.txSeq + 1 ∧ t.mem = s.mem) ∧
    (k.canSend (.audit { held := [], returned := [] }) = false → ∃ t x, exec (.auditSend l) s = .next t ∧
      (t.link l).queued = k.queued ++ [x] ∧ (t.link l).replay = k.replay ∧ t.mem = s.mem) ∧
    (q = k.rxSeq →
      let held := k.occupied.set 3 (vcGet k.occupied 3 + 1)
      let sum (c : Nat) : BitVec 16 :=
        a.held.getD c 0 + BitVec.ofNat 16 (vcGet held c) + (k.returned.getD c 0 - a.returned.getD c 0)
      ((∀ c, c < 4 → sum c = BitVec.ofNat 16 (vcSize c)) →
        ∃ t, exec (.audit l q a) s = .next t ∧ t.obj 0x7053 (l.val + 1) = (s.obj 0x7053 (l.val + 1) + 1) % 2 ^ 32 ∧
          (t.link l).state = .up ∧ t.faults = s.faults ∧ t.mem = s.mem) ∧
      ((∃ c, c < 4 ∧ sum c ≠ BitVec.ofNat 16 (vcSize c)) → s.holdsNoOwn l →
        ∃ t, exec (.audit l q a) s = .next t ∧ (t.link l).state = .down ∧ t.mem = s.mem ∧
          t.obj 0x701A 3 = (s.obj 0x701A 3 + 1) % 2 ^ 32)))

/-! ### Group commits and recovery -/

/-- A coordinator that holds every vote decides FLIP, at the end of its window VOID, and tells every other participant; a
vote that lacks others, or comes with no window open, is kept, one that it has changes nothing; a participant takes the
decision for its open step, and VOID counts the voided step and raises 0x0205 (R65, R274, R275). -/
def Obligations.GroupDecisions : Prop :=
  ∀ (s : State) (l : Port) (q : BitVec 12) (m : StepMsg), s.inOrder l q → m.dest = s.chip →
    let p := m.part.val
    let st := s.step1 p
    let kept (t : State) : Prop := t.step1 p = { st with votes := st.votes ++ [(m.src, m.epoch)] } ∧ t.mem = s.mem
    (st.window = false → (m.src, m.epoch) ∉ st.votes → ∃ t, exec (.vote l q m) s = .next t ∧ kept t) ∧
    ((m.src, m.epoch) ∈ st.votes → ∃ t, exec (.vote l q m) s = .next t ∧ t.streams = s.streams ∧ t.mem = s.mem) ∧
    (st.isOpen = true → st.judged.isSome = true →
      (st.window = true → (m.src, m.epoch) ∉ st.votes → m.epoch = st.epoch →
        ((∀ c ∈ groupChips st.group, c = m.src.toNat ∨ ∃ v ∈ st.votes, v.1.toNat = c ∧ v.2 = st.epoch) →
          ∃ t, exec (.vote l q m) s = .next t ∧ StepOver t p st.epoch .flip ∧
            ToOthers s t st.group p st.epoch .flip .decide) ∧
        ((∃ c ∈ groupChips st.group, c ≠ m.src.toNat ∧ ∀ v ∈ st.votes, v.1.toNat = c → v.2 ≠ st.epoch) →
          ∃ t, exec (.vote l q m) s = .next t ∧ kept t)) ∧
      (m.epoch = st.epoch → m.decision = .flip → ∃ t, exec (.decide l q m) s = .next t ∧ StepOver t p st.epoch .flip) ∧
      (m.epoch = st.epoch → m.decision = .void → ∃ t, exec (.decide l q m) s = .next t ∧
        StepOver t p st.epoch .void ∧ t.obj (0x4020 + p) 3 = (s.obj (0x4020 + p) 3 + 1) % 2 ^ 32 ∧
        t.obj 0x7012 5 = (s.obj 0x7012 5 + 1) % 2 ^ 32) ∧
      (m.epoch ≠ st.epoch → ∃ t, exec (.decide l q m) s = .next t ∧ t.streams = s.streams ∧ t.mem = s.mem) ∧
      (st.window = true → ∃ t, exec (.voteWindowExpire m.part) s = .next t ∧ StepOver t p st.epoch .void ∧
        ToOthers s t st.group p st.epoch .void .decide)) ∧
    (st.isOpen = false → ∃ t, exec (.decide l q m) s = .next t ∧ t.streams = s.streams ∧ t.mem = s.mem) ∧
    (st.window = false → exec (.voteWindowExpire m.part) s = .next s)

/-- A participant without a decision by its deadline is in doubt and queries the others; a query is answered with the
decision for its epoch, with UNDECIDED after the own vote, else with VOID, which a step that is open then takes and a
coordinator without an open step tells every other participant (R274, R276). An answer with a decision ends the doubt, so
does UNDECIDED from every other participant with VOID, and so does the end of the wait (R276; log 75). A recovery entry
makes a Free stream Sealed with its `GEN` (R279). -/
def Obligations.DoubtAndRecovery : Prop :=
  ∀ (s : State) (l : Port) (q : BitVec 12) (m : StepMsg),
    let p := m.part.val
    let st := s.step1 p
    (∀ j, st.judged = some j → j.inDoubt = false → ∃ t, exec (.decisionDeadline m.part) s = .next t ∧
      t.step1 p = { st with judged := some { j with inDoubt := true } } ∧ t.mem = s.mem ∧
      ToOthers s t st.group p j.epoch .undecided .query) ∧
    (∀ j, st.judged = some j → j.inDoubt = true → exec (.decisionDeadline m.part) s = .next s) ∧
    (st.judged = none → exec (.decisionDeadline m.part) s = .next s ∧ exec (.queryTimeout m.part) s = .next s) ∧
    (s.inOrder l q → m.dest = s.chip → ∀ x, s.routePort m.src = some x →
      let answer (d : Decision) : PacketBody := .answer ⟨m.src, s.chip, m.part, m.epoch, d⟩
      (∀ d, st.outcome = some (m.epoch, d) → ∃ t, exec (.query l q m) s = .next t ∧ t.streams = s.streams ∧
        t.mem = s.mem ∧ SentOrQueued s t x (answer d)) ∧
      ((∀ d, st.outcome ≠ some (m.epoch, d)) →
        (st.isOpen = true → st.epoch = m.epoch → st.judged.isSome = true → st.coordinator ≠ s.chip →
          ∃ t, exec (.query l q m) s = .next t ∧ t.streams = s.streams ∧ t.mem = s.mem ∧
            SentOrQueued s t x (answer .undecided)) ∧
        (st.isOpen = true → st.epoch = m.epoch → (st.judged = none ∨ st.coordinator = s.chip) →
          ∃ t, exec (.query l q m) s = .next t ∧ StepOver t p st.epoch .void ∧ t.onItsWay x (answer .void)) ∧
        (st.isOpen = true → st.epoch ≠ m.epoch → ∃ t, exec (.query l q m) s = .next t ∧ t.streams = s.streams ∧
          t.mem = s.mem ∧ SentOrQueued s t x (answer .void)) ∧
        (st.isOpen = false → ∃ t, exec (.query l q m) s = .next t ∧
          t.step1 p = { st with outcome := some (m.epoch, .void) } ∧ t.mem = s.mem ∧ t.onItsWay x (answer .void) ∧
          (s.obj 0x3300 (0x38 + p) = s.chip.toNat → ToOthers s t (s.obj 0x3300 (0x30 + p)) p m.epoch .void .decide)))) ∧
    (∀ j, st.isOpen = true → st.judged = some j → j.inDoubt = true → s.inOrder l q → m.dest = s.chip →
      m.epoch = j.epoch →
      ((m.decision = .flip ∨ m.decision = .void) →
        ∃ t, exec (.answer l q m) s = .next t ∧ StepOver t p st.epoch m.decision) ∧
      (m.decision = .undecided →
        ((∀ c ∈ groupChips st.group, c = s.chip.toNat ∨ c = m.src.toNat ∨ BitVec.ofNat 7 c ∈ j.answers) →
          ∃ t, exec (.answer l q m) s = .next t ∧ StepOver t p st.epoch .void) ∧
        ((∃ c ∈ groupChips st.group, c ≠ s.chip.toNat ∧ c ≠ m.src.toNat ∧ BitVec.ofNat 7 c ∉ j.answers) →
          ∃ t, exec (.answer l q m) s = .next t ∧ (t.step1 p).isOpen = true ∧ t.mem = s.mem))) ∧
    (∀ j, st.isOpen = true → st.judged = some j → j.inDoubt = true →
      ∃ t, exec (.queryTimeout m.part) s = .next t ∧ StepOver t p st.epoch .void) ∧
    (∀ i g : W32, s.keeperServes = true →
      let ok := s.power.dev = .config ∧ s.objOn 0x3300 0x20 = true ∧ i.toNat < 262144 ∧ s.streams.tableSet = true ∧
        (s.entry i.toNat).life = .free ∧ (s.entry i.toNat).gen ≤ g.toNat
      (ok → ∃ t, exec (.recoveryEntry i g) s = .next t ∧ t.kpp.result = 0 ∧
        t.entry i.toNat = { s.entry i.toNat with life := .sealed, gen := g.toNat }) ∧
      (¬ ok → exec (.recoveryEntry i g) s = .next { s with kpp := { s.kpp with result := 0x09 } }))

/-! ### Partitions -/

/-- The partition lock is taken only when every check of Table PG-2 passes, so with it set no resource is owned twice;
while a scrub runs it is refused as busy, and a check that fails raises 0x0B01; unlocking is at once (R281, R285,
R287). A reassignment gives the resources of its mask as a whole: contexts and counters are zeroed at once, memories
by their scrub engine, whose end leaves zeros and no other byte changed; it is refused under the lock, while a scrub
of one of them runs, and while one is in use. An audit mark captures every audit object (R286 to R288, R296, R440;
what counts as given is log 73). -/
def Obligations.PartitionsLockedAndGiven : Prop :=
  (∀ (s : State), s.keeperServes = true →
    (s.scrubs = [] → s.lockFail = none → ∃ t, exec .partitionLock s = .next t ∧ t.locked = true ∧ t.kpp.result = 0 ∧
      t.mem = s.mem ∧ t.contexts = s.contexts ∧ t.queues = s.queues ∧
      ∀ p r j i, p < 8 → r < 8 → p ≠ r → j ∈ resourceMasks → i < 256 → t.owns p j i = true → t.owns r j i = false) ∧
    (s.scrubs ≠ [] → exec .partitionLock s = .next { s with kpp := { s.kpp with result := 0x0B } }) ∧
    (∀ n p, s.scrubs = [] → s.lockFail = some (n, some p) → ∃ t, exec .partitionLock s = .next t ∧
      t.locked = s.locked ∧ t.kpp.result = 0x09 ∧ Raised s t 0x0B01 (partByte p) 0 0 n p) ∧
    (∀ n, s.scrubs = [] → s.lockFail = some (n, none) → ∃ t, exec .partitionLock s = .next t ∧
      t.locked = s.locked ∧ t.kpp.result = 0x09 ∧ Raised s t 0x0B01 deviceWide 0 0 n 0xFF) ∧
    (∃ t, exec .partitionUnlock s = .next t ∧ t.locked = false ∧ t.kpp.result = 0 ∧ t.mem = s.mem)) ∧
  (∀ (s : State), s.keeperServes = true →
    (∀ (p : Part) (sub : BitVec 8) (v n : Nat), partObjectBytes sub.toNat = some n →
      (s.locked = true → exec (.reassignment p sub v) s = .next { s with kpp := { s.kpp with result := 0x07 } }) ∧
      (s.locked = false → 256 ^ n ≤ v → exec (.reassignment p sub v) s =
        .next { s with kpp := { s.kpp with result := 0x05 } }) ∧
      (s.locked = false → v < 256 ^ n → partValueOk sub.toNat v = false → exec (.reassignment p sub v) s =
        .next { s with kpp := { s.kpp with result := 0x06 } }) ∧
      (s.locked = false → v < 256 ^ n → partValueOk sub.toNat v = true →
        (∀ i ∈ s.given p sub.toNat v, s.resourceScrubbing sub.toNat i = false ∧ s.inUse sub.toNat i = false) →
        ∃ t, exec (.reassignment p sub v) s = .next t ∧ t.kpp.result = 0 ∧ t.partObj p sub.toNat = v ∧ t.mem = s.mem ∧
          (∀ i ∈ s.given p sub.toNat v,
            (sub = 2 → (t.context i).regs = [] ∧ (t.context i).mregs = [] ∧ t.counter i = 0) ∧
            (sub = 0xA → tget t.tables i [] = []) ∧
            (sub = 1 ∨ sub = 3 ∨ sub = 4 ∨ sub = 5 → ∃ c ∈ t.scrubs, c.spans = scrubSpans sub.toNat i)) ∧
          ∀ i, i ∉ s.given p sub.toNat v → t.context i = s.context i ∧ t.counter i = s.counter i) ∧
      (s.locked = false → v < 256 ^ n → partValueOk sub.toNat v = true →
        (∃ i ∈ s.given p sub.toNat v, s.resourceScrubbing sub.toNat i = true) →
        ∃ t, exec (.reassignment p sub v) s = .next t ∧ t.kpp.result = 0x0B ∧
          t.partObj p sub.toNat = s.partObj p sub.toNat ∧ Raised s t 0x0B02 (partByte p.val) 0 0 0 0) ∧
      (s.locked = false → v < 256 ^ n → partValueOk sub.toNat v = true →
        (∀ i ∈ s.given p sub.toNat v, s.resourceScrubbing sub.toNat i = false) →
        (∃ i ∈ s.given p sub.toNat v, s.inUse sub.toNat i = true) →
        exec (.reassignment p sub v) s = .next { s with kpp := { s.kpp with result := 0x09 } })) ∧
    (∀ (e : Fin 5) (c : Scrub), s.scrubs.find? (fun c => decide (c.engine = e.val)) = some c →
      ∃ t, exec (.scrubDone e) s = .next t ∧ t.scrubs = s.scrubs.erase c ∧
        (∀ x ∈ c.spans, ∀ k, x.1 ≤ k → k < x.1 + x.2 → t.rd8 k = 0) ∧
        ∀ k, (∀ x ∈ c.spans, k < x.1 ∨ x.1 + x.2 ≤ k) → t.rd8 k = s.rd8 k) ∧
    (∀ e : Fin 5, s.scrubs.find? (fun c => decide (c.engine = e.val)) = none → exec (.scrubDone e) s = .next s) ∧
    (∃ t, exec .auditMark s = .next t ∧ t.obj 0x7060 2 = 0 ∧ t.kpp.result = 0 ∧ t.mem = s.mem ∧
      ∀ e ∈ auditObjects, ∀ j, 1 ≤ j → j ≤ e.2 → tget t.captured (objKey e.1 j) 0 = s.auditNow e.1 j)) ∧
  (∀ (s : State) (p : Part) (sub : BitVec 8) (v : Nat), s.keeperServes = false →
    ∀ e ∈ [Instr.partitionLock, .partitionUnlock, .reassignment p sub v, .auditMark], exec e s = .next s)

/-! ### Kwekoash Parameter Protocol -/

/-- `READ` answers an object's value and `WRITE` stores one; what the checks of Table KP-5 refuse is answered with
their abort code and stores nothing: the lengths, an object whose domain is off, a value out of range, an object that the
Keeper does not reach (R303, R304). -/
def Obligations.ReadsAndWrites : Prop :=
  ∀ (s : State) (r : KppRequest),
    let hr := s.holdOf 1 r
    let hw := s.holdOf 2 r
    let i := r.index.toNat
    let j := r.sub.toNat
    let n := r.len.toNat
    (Taken s hr →
      let u := s.executing hr
      let aborts (c : Nat) : Prop :=
        ∃ t, exec (.read r) s = .next t ∧ Answers t hr 0xC1 0 [BitVec.ofNat 8 c] ∧ t.mem = s.mem ∧ t.queues = s.queues
      (∀ row, u.checked hr.key i j false = .ok row →
        ((u.objBytes i j).length ≤ 56 → n = 0 → u.objPowered i j = true → u.keeperReaches i j = (u, true) →
          ∃ t, exec (.read r) s = .next t ∧ Answers t hr 0x81 0 (u.objBytes i j) ∧ t.mem = s.mem ∧
            t.queues = s.queues) ∧
        ((56 < (u.objBytes i j).length ∨ n % 64 ≠ 0) → n % 64 ≤ 56 → aborts 0x05) ∧
        ((u.objBytes i j).length ≤ 56 → n = 0 → u.objPowered i j = false → aborts 0x09) ∧
        ((u.objBytes i j).length ≤ 56 → n = 0 → u.objPowered i j = true → (u.keeperReaches i j).2 = false →
          aborts 0x0F)) ∧
      (∀ c, c < 256 → u.checked hr.key i j false = .error c → n % 64 ≤ 56 → aborts c)) ∧
    (Taken s hw →
      let u := s.executing hw
      let aborts (c : Nat) : Prop := ∃ t, exec (.write r) s = .next t ∧ Answers t hw 0xC2 0 [BitVec.ofNat 8 c] ∧
        t.mem = s.mem ∧ (i < 0x7000 → t.obj i j = s.obj i j)
      (∀ row, u.checked hw.key i j true = .ok row →
        (n ≤ 56 → row.lengthOk n = true → u.objPowered i j = true → (u.keeperReaches i j).2 = true →
          ∀ lo hi v, (i, j, lo, hi) ∈ plainObjects → v = leNat (slice r.payload 0 n) → lo ≤ v → v ≤ hi →
            ∃ t, exec (.write r) s = .next t ∧ Answers t hw 0x82 0 [] ∧ t.obj i j = v ∧ t.mem = s.mem ∧
              t.queues = s.queues ∧ t.contexts = s.contexts) ∧
        (∀ v, n ≤ 56 → row.lengthOk n = true → u.objPowered i j = true → (u.keeperReaches i j).2 = true →
          u.objPut i j (slice r.payload 0 n) = (v, 0) →
          v.kpp = u.kpp → v.power = u.power → v.streams.clearing = u.streams.clearing → (i ≠ 0x2202 ∨ j ≠ 5) →
          ∃ t, exec (.write r) s = .next t ∧ Answers t hw 0x82 0 [] ∧ t.mem = v.mem ∧
            (i < 0x7000 → t.obj i j = v.obj i j)) ∧
        (n ≤ 56 → row.lengthOk n = true → u.objPowered i j = true →
          ∀ lo hi v, (i, j, lo, hi) ∈ plainObjects → v = leNat (slice r.payload 0 n) → (v < lo ∨ hi < v) → aborts 0x06) ∧
        (n % 64 ≤ 56 → row.lengthOk (n % 64) = false → aborts 0x05) ∧
        (n ≤ 56 → row.lengthOk n = true → u.objPowered i j = false → aborts 0x09)) ∧
      (∀ c, c < 256 → u.checked hw.key i j true = .error c → n % 64 ≤ 56 → aborts c))

/-- Segmented commands: the first segment of a read carries the length and 52 bytes, each later one 56 bytes, the last
closes the transfer; a write is gathered and takes effect with its last segment; `SEG_ABORT` closes the transfer and
`RELEASE` frees the client's entry; a timeout closes a transfer or frees an idle entry; the mailbox doorbell submits
the request buffer, where the host port is reached (R305, R308, R311, R338). -/
def Obligations.SegmentsAndClients : Prop :=
  ∀ (s : State) (r : KppRequest),
    let i := r.index.toNat
    let j := r.sub.toNat
    (∀ row,
      let h := s.holdOf 3 r
      let u := s.executing h
      let l := u.objBytes i j
      Taken s h → u.checked h.key i j false = .ok row → r.len.toNat % 64 = 0 →
      (r.len.toNat / 64 = 1 → s.transfer h.key = none → u.objPowered i j = true → u.keeperReaches i j = (u, true) →
        (l.length ≤ 52 → ∃ t, exec (.readSeg r) s = .next t ∧ Answers t h 0x83 3 (natLe l.length 4 ++ l) ∧
          t.transfer h.key = none ∧ t.mem = s.mem) ∧
        (52 < l.length → ∃ t x, exec (.readSeg r) s = .next t ∧
          Answers t h 0x83 1 (natLe l.length 4 ++ l.take 52) ∧ OpenOn t h x ∧ x.isWrite = false ∧ x.bytes = l.drop 52 ∧
          t.mem = s.mem)) ∧
      (∀ x, r.len.toNat / 64 = 2 → OpenOn s h x → x.isWrite = false →
        (56 < x.bytes.length → ∃ t, exec (.readSeg r) s = .next t ∧ Answers t h 0x83 2 (x.bytes.take 56) ∧
          OpenOn t h { x with bytes := x.bytes.drop 56 }) ∧
        (x.bytes.length ≤ 56 → ∃ t, exec (.readSeg r) s = .next t ∧ Answers t h 0x83 3 x.bytes ∧
          t.transfer h.key = none)) ∧
      (r.len.toNat / 64 = 3 ∨ r.len.toNat / 64 = 2 ∧ s.transfer h.key = none →
        ∃ t, exec (.readSeg r) s = .next t ∧ Answers t h 0xC3 0 [0x0C] ∧ t.transfer h.key = none ∧ t.mem = s.mem)) ∧
    (∀ row,
      let h := s.holdOf 4 r
      let u := s.executing h
      let n := r.len.toNat % 64
      let p := slice r.payload 0 n
      Taken s h → u.checked h.key i j true = .ok row → n ≤ 56 →
      (r.len.toNat / 64 = 1 → 4 ≤ n → s.transfer h.key = none → row.lengthOk (field p 0 4) = true →
        56 < field p 0 4 → field p 0 4 ≤ 65536 →
        ∃ t x, exec (.writeSeg r) s = .next t ∧ Answers t h 0x84 0 [] ∧ OpenOn t h x ∧ x.isWrite = true ∧
          x.total = field p 0 4 ∧ x.bytes = p.drop 4 ∧ t.mem = s.mem) ∧
      (∀ x, r.len.toNat / 64 = 2 → OpenOn s h x → x.isWrite = true → x.bytes.length + n < x.total →
        ∃ t, exec (.writeSeg r) s = .next t ∧ Answers t h 0x84 0 [] ∧ OpenOn t h { x with bytes := x.bytes ++ p } ∧
          t.mem = s.mem) ∧
      (∀ x v, r.len.toNat / 64 = 3 → OpenOn s h x → x.isWrite = true → x.bytes.length + n = x.total →
        let w := u.setTransfer h.key none
        u.objPowered i j = true → (w.keeperReaches i j).2 = true → w.objPut i j (x.bytes ++ p) = (v, 0) →
        v.kpp = w.kpp → v.power = u.power → v.streams.clearing = u.streams.clearing →
        ∃ t, exec (.writeSeg r) s = .next t ∧ Answers t h 0x84 0 [] ∧ t.transfer h.key = none ∧ t.mem = v.mem)) ∧
    (∀ h, h = s.holdOf 5 r → Taken s h → r.len.toNat % 64 = 0 → ∃ t, exec (.segAbort r) s = .next t ∧ Answers t h 0x85 0 [] ∧
        t.transfer h.key = none ∧ t.mem = s.mem) ∧
    (∀ h, h = s.holdOf 6 r → Taken s h → r.len.toNat % 64 = 0 → ∃ t, exec (.kppRelease r) s = .next t ∧ Answers t h 0x86 0 [] ∧
        t.client h.key = none ∧ t.mem = s.mem) ∧
    (∀ (k : ClientKey) (e : Client), s.client k = some e →
      (e.running = none → ∃ t, exec (.clientIdleTimeout k) s = .next t ∧ t.client k = none ∧ t.mem = s.mem ∧
        ∀ x, x ≠ k → t.client x = s.client x) ∧
      (e.running ≠ none → exec (.clientIdleTimeout k) s = .next s) ∧
      (∃ t, exec (.segmentTimeout k) s = .next t ∧ t.client k = some { e with transfer := none } ∧ t.mem = s.mem ∧
        ∀ x, x ≠ k → t.client x = s.client x)) ∧
    (∀ k : ClientKey, s.client k = none →
      exec (.clientIdleTimeout k) s = .next s ∧ exec (.segmentTimeout k) s = .next s) ∧
    (∀ m, m = s.mailboxFrame → s.hostReaches = true →
      ∀ e ∈ [((1 : BitVec 8), Instr.read m.2), (2, .write m.2), (3, .readSeg m.2), (4, .writeSeg m.2), (5, .segAbort m.2),
          (6, .kppRelease m.2)], m.1 = e.1 →
        exec .mailboxDoorbell s = exec e.2 { s with kpp := { s.kpp with respValid := false } }) ∧
    (s.hostReaches = false → exec .mailboxDoorbell s = .next s)

/-- The gateway: a client's request for another chip leaves in a KPP_FWD on the port of its route and is kept among the
forwarded; a request of another chip's gateway is executed and answered in a KPP_RSP; a response goes back to its client
and ends the forwarding, a late one is counted; without one the client gets abort 0x0D (R310). New CAN FD rates take
effect (R298). -/
def Obligations.GatewayForwards : Prop :=
  ∀ (s : State) (l : Port) (q : BitVec 12) (m : KppPacket) (h : Held),
    let key : ClientKey := { chip := m.src, transport := m.frame.transport, client := m.frame.client }
    let g : Held := { key, cmd := m.cmd, req := m.frame, arrived := s.cycle, port := l }
    let s' := s.setLink l { s.link l with
      rxSeq := (s.link l).rxSeq + 1, gap := false, occupied := (s.link l).occupied.set 3 (vcGet (s.link l).occupied 3 + 1) }
    (∀ (r : KppRequest) x, r.transport = .mailbox → s.transportServed .mailbox = true → s.power.dev ≠ .rest →
      malformed (s.holdOf 1 r) = false → r.tgt.toNat < 128 → r.tgt.toNat ≠ s.chip.toNat → s.objOn 0x1104 1 = true →
      s.kpp.forwards.length < 16 → s.routePort (r.tgt.setWidth 7) = some x →
      ∃ t, exec (.read r) s = .next t ∧ t.kpp.forwards = s.kpp.forwards ++ [s.holdOf 1 r] ∧ t.mem = s.mem ∧
        SentOrQueued s t x (.kppFwd { dest := r.tgt.setWidth 7, src := s.chip, cmd := 1, frame := r })) ∧
    (s.inOrder l q → m.dest = s.chip → m.src ≠ s.chip → s.keeperServes = true → s.kpp.deferred = none →
      s.kpp.waiting = [] → ∀ c x, s.client key = some c → c.running = none → (∀ y ∈ c.cache, y.txn ≠ m.frame.txn) →
      s.routePort m.src = some x →
      let rsp (n : Nat) (p : List Byte) : PacketBody :=
        let frame : KppRequest := { m.frame with
          tgt := s.chip.setWidth 8, len := BitVec.ofNat 8 (64 * n + p.length), payload := p, length := 64 }
        .kppRsp { dest := m.src, src := s.chip, cmd := BitVec.ofNat 8 (0x80 + m.cmd.toNat % 64), frame }
      let u := s'.executing g
      let i := m.frame.index.toNat
      let j := m.frame.sub.toNat
      (∀ row, m.cmd = 1 → m.frame.len = 0 → u.checked key i j false = .ok row → (u.objBytes i j).length ≤ 56 →
        u.objPowered i j = true → u.keeperReaches i j = (u, true) →
        ∃ t, exec (.kppFwd l q m) s = .next t ∧ SentOrQueued s t x (rsp 0 (u.objBytes i j)) ∧ t.mem = s.mem) ∧
      (∀ v n p, u.runRequest g = (v, .ok (n, p)) → v.streams.clearing = s.streams.clearing → p.length ≤ 56 → n < 4 →
        m.cmd ≠ 6 → g.wrote 0x2202 5 1 = false → v.links = s'.links → v.power = s.power →
        ∃ t, exec (.kppFwd l q m) s = .next t ∧ SentOrQueued s t x (rsp n p) ∧ t.mem = v.mem)) ∧
    (s.inOrder l q → m.dest = s.chip → s.keeperServes = false → ∃ t, exec (.kppFwd l q m) s = .next t ∧ t.kpp = s.kpp ∧
      t.mem = s.mem) ∧
    (∀ k : ClientKey, k = { chip := s.chip, transport := .mailbox, client := m.frame.client } →
      s.inOrder l q → m.dest = s.chip → m.frame.transport = .mailbox →
      (s.forwarded k m.frame.txn = some h → h.discard = false →
        ∃ t, exec (.kppRsp l q m) s = .next t ∧ t.kpp.forwards = s.kpp.forwards.erase h ∧ t.kpp.respValid = true ∧
          t.kpp.mailboxResponse = [m.cmd, m.frame.client, m.frame.txn, m.frame.tgt] ++ natLe m.frame.index.toNat 2 ++
            [m.frame.sub, m.frame.len] ++ slice m.frame.payload 0 (m.frame.len.toNat % 64) ∧ t.mem = s.mem) ∧
      (s.forwarded k m.frame.txn = none → ∃ t, exec (.kppRsp l q m) s = .next t ∧ t.kpp = s.kpp ∧
        t.obj 0x7071 5 = (s.obj 0x7071 5 + 1) % 2 ^ 32)) ∧
    (∀ k txn, s.forwarded k txn = some h → h.key.chip = s.chip → h.key.transport = .mailbox → h.discard = false →
      ∃ t, exec (.forwardTimeout k txn) s = .next t ∧ t.kpp.forwards = s.kpp.forwards.erase h ∧
        Answers t h (0xC0 + h.cmd.toNat % 64) 0 [0x0D] ∧ t.mem = s.mem) ∧
    (∀ k txn, s.forwarded k txn = none → exec (.forwardTimeout k txn) s = .next s) ∧
    (s.keeperServes = true → ∃ t, exec .applyRates s = .next t ∧ t.kpp.nominalRate = s.obj 0x1101 1 ∧
      t.kpp.dataRate = s.obj 0x1101 2 ∧ t.kpp.result = 0) ∧
    (s.keeperServes = false → exec .applyRates s = .next s)

/-- The heartbeat tells the device state, the Tracker's and the epoch; a classic frame at an identifier of Table KP-1
is only counted; a command image of 64 bytes is kept and makes its station present, whose silence raises 0x0C02; at
the input phase the image is delivered with its flags where the Keeper's writes are accepted, at the output phase the
alert image is sent; acknowledgements free the records before their number (R298, R301, R312 to R314, R317, R333). -/
def Obligations.CyclicExchange : Prop :=
  ∀ (s : State),
    (s.imageRuns = true → s.obj 0x1102 0 ≠ 0 → s.node ≠ 0 → ∃ t f, exec .heartbeat s = .next t ∧
      t.outputs.can = s.outputs.can ++ [f] ∧ f.ident = BitVec.ofNat 11 (0x700 + s.node) ∧
      f.data = [BitVec.ofNat 8 s.power.dev.code, BitVec.ofNat 8 s.tracker.state.code] ++ natLe s.epoch.toNat 4 ∧
      t.kpp = s.kpp ∧ t.mem = s.mem) ∧
    ((s.imageRuns = false ∨ s.obj 0x1102 0 = 0 ∨ s.node = 0) → exec .heartbeat s = .next s) ∧
    (∀ x : BitVec 11, s.imageRuns = true → s.node ≠ 0 → exec (.classicFrame x) s =
      .next (if x.toNat ∈ kppIdents s.node then s.bump 0x7071 2 else s)) ∧
    (∀ l : List Byte, s.exchanges = true → s.power.rest = .none →
      (l.length = 64 → exec (.commandImage l) s =
        .next { s with kpp := { s.kpp with image := l, present := true, absent := 0 } }) ∧
      (l.length ≠ 64 → exec (.commandImage l) s = .next (s.bump 0x7071 1))) ∧
    (s.exchanges = true → s.kpp.present = true → ∃ t, exec .consumerTimeout s = .next t ∧ t.kpp.present = false ∧
      t.obj 0x7072 1 = (s.obj 0x7072 1 + 1) % 2 ^ 32 ∧ t.obj 0x701C 2 = (s.obj 0x701C 2 + 1) % 2 ^ 32 ∧ t.mem = s.mem) ∧
    ((s.exchanges = false ∨ s.kpp.present = false) → exec .consumerTimeout s = .next s) ∧
    (s.imageEpoch = true → s.isOn 1 = true →
      let u := s.toPhase (s.obj 0x1105 3)
      let x : List Byte × Nat := if s.kpp.present then (slice s.kpp.image 0 64, 0)
        else if s.kpp.absent + 1 ≤ s.obj 0x1105 5 then (slice s.kpp.image 0 64, 5) else (natLe (s.obj 0x6000 2) 64, 6)
      let l := patch x.1 2 [BitVec.ofNat 8 x.2]
      let place := s.obj 0x6002 1
      u.opens 11 (partByte (s.obj 0x6002 3)) true place 64 →
      ∃ t, exec .commandImageDelivery s = .next t ∧ t.rdBytes (place % 2 ^ 53) 64 = l ∧
        (∀ k, (k < place % 2 ^ 53 ∨ place % 2 ^ 53 + 64 ≤ k) → t.rd8 k = s.rd8 k) ∧ t.obj 0x6000 1 = leNat l ∧
        t.kpp.deliveredFlags.toNat = x.2 ∧ t.kpp.deliveredSeq.toNat = field l 0 2) ∧
    ((s.imageEpoch = false ∨ s.isOn 1 = false) → exec .commandImageDelivery s = .next s) ∧
    (s.imageEpoch = true → s.node ≠ 0 → ∃ t f, exec .alertImage s = .next t ∧ t.outputs.can = s.outputs.can ++ [f] ∧
      f.ident = BitVec.ofNat 11 (0x280 + s.node) ∧ f.data.length = 64 ∧
      field f.data 0 2 = s.kpp.deliveredSeq.toNat ∧ field f.data 4 4 = s.alerts.nextSeq.toNat ∧
      field f.data 16 4 = s.alerts.notLatched.toNat ∧ t.obj 0x6003 1 = leNat f.data ∧ t.mem = s.mem) ∧
    (s.imageEpoch = false → exec .alertImage s = .next s) ∧
    (∀ a : W32, s.keeperServes = true →
      (1 ≤ (a - s.oldestAlert).toNat → (a - s.oldestAlert).toNat < 2 ^ 31 →
        (a - s.oldestAlert).toNat ≤ (s.alerts.nextSeq - s.oldestAlert).toNat →
        ∃ t, exec (.alertAcknowledge a) s = .next t ∧ t.kpp.result = 0 ∧ t.mem = s.mem ∧
          t.alerts.ring = s.alerts.ring.filter fun x => !seqBefore x.seq a) ∧
      (1 ≤ (a - s.oldestFault).toNat → (a - s.oldestFault).toNat < 2 ^ 31 →
        (a - s.oldestFault).toNat ≤ (s.faults.nextSeq - s.oldestFault).toNat →
        ∃ t, exec (.faultAcknowledge a) s = .next t ∧ t.kpp.result = 0 ∧ t.mem = s.mem ∧
          t.faults.log = s.faults.log.filter fun x => !seqBefore x.seq a) ∧
      (a = s.oldestFault → exec (.faultAcknowledge a) s = .next { s with kpp := { s.kpp with result := 0 } }))

/-! ### Power, Rest, resets, boot -/

/-- A domain that may go off fences and drains, and is off with its memories zero once drained, or retained with its
contents; a drain that does not end is abandoned with 0x0E01; switching on zeroes the memories unless they come from
retention. A request that Table PW-1 forbids gets abort 0x09, one for a domain that is switching 0x0B, and D0 stays on
(R361 to R363, R366). -/
def Obligations.PowerDomains : Prop :=
  ∀ (s : State) (d : DomainId), s.power.domainReqs = [] →
    let refused (code : BitVec 8) : State := { s with kpp := { s.kpp with result := code } }
    (s.keeperServes = true → s.switching = false → d.val ≠ 0 → s.obj 0x2201 (d.val + 1) ≠ 3 →
      (s.domain d = .on → s.mayGoOff d = true → ∃ t, exec (.domainOff d) s = .next t ∧ t.domain d = .draining false ∧
        t.obj 0x2200 (d.val + 1) = 0 ∧ t.obj 0x2201 (d.val + 1) = 3 ∧ t.kpp.result = 0 ∧ t.mem = s.mem) ∧
      (s.domain d = .retained → s.mayGoOff d = true → ∃ t, exec (.domainOff d) s = .next t ∧ t.domain d = .off ∧
        t.obj 0x2200 (d.val + 1) = 0 ∧ t.obj 0x2201 (d.val + 1) = 0 ∧ t.kpp.result = 0 ∧ DomainZeroed s t d) ∧
      (s.domain d = .on → 38 ≤ d.val → d.val ≤ 41 → ∃ t, exec (.domainRetain d) s = .next t ∧
        t.domain d = .draining true ∧ t.obj 0x2200 (d.val + 1) = 2 ∧ t.kpp.result = 0 ∧ t.mem = s.mem) ∧
      (s.domain d = .off → s.mayGoOn d = true → ∃ t, exec (.domainOn d) s = .next t ∧
        t.domain d = .switchingOn false ∧ t.obj 0x2200 (d.val + 1) = 1 ∧ t.obj 0x2201 (d.val + 1) = 3 ∧
        t.kpp.result = 0 ∧ t.mem = s.mem) ∧
      (s.domain d = .retained → s.mayGoOn d = true → ∃ t, exec (.domainOn d) s = .next t ∧ t.domain d = .switchingOn true ∧
        t.obj 0x2200 (d.val + 1) = 1 ∧ t.obj 0x2201 (d.val + 1) = 3 ∧ t.kpp.result = 0 ∧ t.mem = s.mem)) ∧
    (s.keeperServes = true →
      (d.val ≠ 0 → s.mayGoOff d = false → s.domain d = .on ∨ s.domain d = .retained →
        exec (.domainOff d) s = .next (refused 0x09)) ∧
      (s.mayGoOn d = false → exec (.domainOn d) s = .next (refused 0x09)) ∧
      (d.val ≠ 0 → s.obj 0x2201 (d.val + 1) = 3 →
        (s.mayGoOff d = true → exec (.domainOff d) s = .next (refused 0x0B)) ∧
        (s.mayGoOn d = true → exec (.domainOn d) s = .next (refused 0x0B))) ∧
      (d.val = 0 → exec (.domainOff d) s = .next (refused 0x06)) ∧
      (d.val < 38 ∨ 41 < d.val → exec (.domainRetain d) s = .next (refused 0x06))) ∧
    (s.keeperServes = false → ∀ c ∈ [Instr.domainOff d, .domainRetain d, .domainOn d], exec c s = .next s) ∧
    (s.power.warm ≠ .draining → s.power.rest = .none → s.drained d = true →
      (s.domain d = .draining false → ∃ t, exec (.drainComplete d) s = .next t ∧ t.domain d = .off ∧
        t.obj 0x2201 (d.val + 1) = 0 ∧ DomainZeroed s t d) ∧
      (s.domain d = .draining true → ∃ t, exec (.drainComplete d) s = .next t ∧ t.domain d = .retained ∧
        t.obj 0x2201 (d.val + 1) = 2 ∧ t.mem = s.mem)) ∧
    (s.power.warm ≠ .draining → s.power.rest ≠ .none ∨ s.drained d = false ∨ (∀ r, s.domain d ≠ .draining r) →
      exec (.drainComplete d) s = .next s) ∧
    (∀ r, s.domain d = .draining r → s.power.rest = .none → s.power.warm = .none → s.drained d = false →
      ∃ t, exec (.drainTimeout d) s = .next t ∧ t.domain d = .on ∧ t.obj 0x2200 (d.val + 1) = 1 ∧ t.mem = s.mem ∧
        Raised s t 0x0E01 deviceWide d 0 (s.outstanding d) 0) ∧
    (s.power.rest ≠ .none ∨ s.power.warm ≠ .none ∨ s.drained d = true ∨ (∀ r, s.domain d ≠ .draining r) →
      exec (.drainTimeout d) s = .next s) ∧
    (∀ r, s.domain d = .switchingOn r → ∃ t, exec (.switchOnComplete d) s = .next t ∧ t.domain d = .on ∧
      t.obj 0x2201 (d.val + 1) = 1 ∧ (d.val ≠ 49 → if r then t.mem = s.mem else DomainZeroed s t d)) ∧
    ((∀ r, s.domain d ≠ .switchingOn r) → exec (.switchOnComplete d) s = .next s)

/-- Rest is entered on request, or by the Almanac, from READY or RUN: every domain fences, and when all have drained
every domain but D0 is off, or, a quarter of the retention mask, retained; a drain that does not end abandons it with
0x0E01. A wake event that the mask admits starts the wake, one held since the trigger once Rest is reached; the wake
returns to the state Rest was entered from (R371 to R377; that domains come back as object 0x2200 last asked is log
38). -/
def Obligations.RestAndWake : Prop :=
  ∀ (s : State),
    (s.keeperServes = true → s.power.rest = .none →
      (s.restRefused = false → ∃ t, exec .restRequest s = .next t ∧ t.power.rest = .entering ∧
        t.power.restFrom = s.power.dev ∧ t.kpp.result = 0 ∧ t.mem = s.mem ∧
        ∀ d, 1 ≤ d → d ≤ 49 → s.domain d = .on → t.domain d = .draining false) ∧
      (s.restRefused = true → exec .restRequest s = .next { s with kpp := { s.kpp with result := 0x09 } })) ∧
    (s.keeperServes = true → s.power.rest = .entering →
      exec .restRequest s = .next { s with kpp := { s.kpp with result := 0 } }) ∧
    (s.keeperServes = false → exec .restRequest s = .next s) ∧
    (∀ (k : EntryId) (t : Nat) (b : Backlog), Fires s k t 0xA b → s.power.rest = .none →
      (s.restRefused = false → ∃ u, exec (.almanacRest k t) s = .next u ∧ u.power.rest = .entering ∧
        u.power.restFrom = s.power.dev ∧ u.mem = s.mem) ∧
      (s.restRefused = true → ∃ u, exec (.almanacRest k t) s = .next u ∧ u.power.rest = .none ∧
        u.obj 0x2103 6 = (s.obj 0x2103 6 + 1) % 2 ^ 32 ∧ u.mem = s.mem)) ∧
    (s.power.rest = .entering →
      (s.allDrained = true →
        (∃ t, exec .restEntryComplete s = .next t ∧ t.power.dev = .rest ∧ (∀ d, 1 ≤ d → d ≤ 49 → t.domain d =
          (if 38 ≤ d ∧ d ≤ 41 ∧ s.domain d ≠ .off ∧ s.retains (d - 38) = true then .retained else .off)) ∧
          t.obj 0x2202 3 = (s.obj 0x2202 3 + 1) % 2 ^ 32 ∧
          (s.power.heldWake = none → t.power.rest = .asleep) ∧
          ∀ i, s.power.heldWake = some i → (s.obj 0x2202 2).testBit i = true →
            t.power.rest = .waking ∧ t.obj 0x2202 4 = 2 ^ i) ∧
        exec .restDrainTimeout s = .next s) ∧
      (s.allDrained = false → exec .restEntryComplete s = .next s ∧ ∃ t, exec .restDrainTimeout s = .next t ∧
        t.power.rest = .none ∧ t.power.dev = s.power.dev ∧ t.mem = s.mem ∧
        t.obj 0x701E 1 = (s.obj 0x701E 1 + 1) % 2 ^ 32 ∧
        ∀ d r, 1 ≤ d → d ≤ 49 → s.domain d = .draining r → t.domain d = .on)) ∧
    (s.power.rest ≠ .entering → exec .restEntryComplete s = .next s ∧ exec .restDrainTimeout s = .next s) ∧
    (∀ (x : BitVec 11), ∀ e ∈ [(Instr.wakeN, 1), (.clkreqNWake, 3), (.canWake x, 2)],
      (e.2 = 2 → s.node ≠ 0 ∧ (x.toNat = 0x400 + s.node ∨ x.toNat = 0x200 + s.node)) →
      ((s.obj 0x2202 2).testBit e.2 = true →
        (s.power.rest = .asleep → ∃ t, exec e.1 s = .next t ∧
          t.power.rest = .waking ∧ t.power.wakeCycle = s.cycle ∧ t.obj 0x2202 4 = 2 ^ e.2 ∧ t.mem = s.mem) ∧
        (s.power.rest = .entering → exec e.1 s = .next { s with
          power := { s.power with heldWake := s.power.heldWake <|> some e.2 } }) ∧
        (s.power.rest = .none ∨ s.power.rest = .waking → exec e.1 s = .next s)) ∧
      ((s.obj 0x2202 2).testBit e.2 = false → exec e.1 s = .next s)) ∧
    (∀ x : BitVec 11, s.node = 0 ∨ (x.toNat ≠ 0x400 + s.node ∧ x.toNat ≠ 0x200 + s.node) →
      exec (.canWake x) s = .next s) ∧
    (∀ (k : EntryId) (t : Nat) (b : Backlog), Fires s k t 9 b → s.power.rest = .asleep →
      (s.obj 0x2202 2).testBit 0 = true → ∃ u, exec (.almanacWake k t) s = .next u ∧ u.power.rest = .waking ∧
        u.obj 0x2202 4 = 1 ∧ u.mem = s.mem) ∧
    (s.power.rest = .waking → s.kpp.kept = [] → ∃ t, exec .wakeComplete s = .next t ∧ t.power.rest = .none ∧
      t.power.dev = s.power.restFrom ∧ s.power.wakeCycle + 250000 ≤ t.cycle ∧
      ∀ d, 1 ≤ d → d ≤ 49 → d ≠ 45 → s.obj 0x2200 (d + 1) = 1 → t.isOn d = true) ∧
    (s.power.rest ≠ .waking → exec .wakeComplete s = .next s)

/-- A reset leaves no thread, no queue entry and no counter, and every object it does not keep at its reset value. A
cold reset keeps the fuses and the flash and samples the straps; a warm one waits for the drain, in FAULT after 0x0E03
first for the temperature, and keeps time and the objects of R322; the supplies' loss and return lead to OFF and RESET
(R322, R370, R378, R379, R391, Table PW-3). -/
def Obligations.Resets : Prop :=
  ∀ (s : State),
    let empty (t : State) : Prop := t.contexts = [] ∧ t.queues = [] ∧ t.counters = []
    let cold (t : State) (dev : DevState) : Prop := empty t ∧ t.mem = [] ∧ t.tracker = {} ∧ t.power.dev = dev ∧
      t.power.flash = s.power.flash ∧ t.pending = s.pending ∧ t.obj 0x7F00 5 = s.obj 0x7F00 5 ∧
      t.obj 0x7F00 6 = s.obj 0x7F00 6 ∧ t.power.fuseCopies = s.power.fuseCopies ∧
      ∀ i j, objKey i j ∉ fuseKeys → t.obj i j = objDefault i j
    let warm (t : State) : Prop := empty t ∧ t.tracker = s.tracker ∧ t.cycle = s.cycle ∧
      t.power.flash = s.power.flash ∧ ∀ i j, j < 256 → keptWarm i j = false → objKey i j ∉
        [objKey 0x7800 7, objKey 0x2200 46, objKey 0x2201 46] → t.obj i j = objDefault i j
    let hot : Prop := s.power.dev = .fault ∧ s.power.tripped = true ∧
      signedOf 32 (s.obj 0x2203 2) ≤ s.power.temperature
    (∀ x : Straps,
      (s.power.dev ≠ .off → ∃ t, exec (.coldReset x) s = .next t ∧ cold t .boot ∧ t.power.straps = x) ∧
      (s.power.dev = .off → exec (.coldReset x) s = .next s)) ∧
    (s.power.dev = .off → exec (.supplyLoss .alwaysOn) s = .next s ∧
      ∃ t, exec .suppliesInTolerance s = .next t ∧ cold t .reset) ∧
    (s.power.dev ≠ .off → exec .suppliesInTolerance s = .next s ∧
      ∃ t, exec (.supplyLoss .alwaysOn) s = .next t ∧ cold t .reset) ∧
    (∃ t, exec (.supplyLoss .removed) s = .next t ∧ cold t .off) ∧
    (s.power.dev ≠ .off → s.power.dev ≠ .reset →
      (¬ hot → s.allDrained = false → ∃ t, exec (.warmReset .pin) s = .next t ∧ t.power.dev = .reset ∧
        t.power.warm = .draining ∧ t.mem = s.mem ∧ t.contexts = s.contexts) ∧
      (¬ hot → s.allDrained = true → ∃ t, exec (.warmReset .pin) s = .next t ∧ t.power.dev = .reset ∧
        t.power.warm = .held ∧ warm t) ∧
      (¬ hot → s.keeperServes = true → s.allDrained = true → s.power.sysrstLow = false →
        ∃ t, exec (.warmReset .object) s = .next t ∧ t.power.dev = .boot ∧ t.power.warm = .none ∧ warm t) ∧
      (hot → exec (.warmReset .pin) s = .next { s with power := { s.power with sysrstLow := true, warm := .hot } })) ∧
    (s.power.dev = .off ∨ s.power.dev = .reset →
      exec (.warmReset .pin) s = .next { s with power := { s.power with sysrstLow := true } }) ∧
    (s.keeperServes = false → exec (.warmReset .object) s = .next s) ∧
    (s.power.warm = .draining →
      (∃ t, exec .warmResetDrainTimeout s = .next t ∧ warm t ∧
        t.obj 0x701E 1 = (s.obj 0x701E 1 + 1) % 2 ^ 32 ∧
        t.power.dev = (if s.power.sysrstLow then .reset else .boot)) ∧
      ∀ d, (s.allDrained = true → ∃ t, exec (.drainComplete d) s = .next t ∧ warm t ∧
          t.power.dev = (if s.power.sysrstLow then .reset else .boot)) ∧
        (s.allDrained = false → exec (.drainComplete d) s = .next s)) ∧
    (s.power.warm ≠ .draining → exec .warmResetDrainTimeout s = .next s) ∧
    (s.power.warm = .held → ∃ t, exec .sysrstNRelease s = .next t ∧ t.power.dev = .boot ∧ t.power.warm = .none ∧
      t.power.sysrstLow = false ∧ t.mem = s.mem) ∧
    (s.power.warm ≠ .held → exec .sysrstNRelease s = .next { s with power := { s.power with sysrstLow := false } })

/-- Above the warning threshold the die raises 0x0E02 once, with `THERM_N` low, until it has cooled by 2 °C; above the
trip threshold, or with a rail outside 90 to 110 % of its target, the SX4 enters FAULT, `FAULT_N` goes low and every
domain but D0 is clamped off with its contents lost (that external memory then reads 0 is log 3); a warm reset that
waits for the temperature then goes ahead. From CONFIG on, at most once a millisecond, AVS asks for a target that
differs by at most 10 mV within 650 to 850 mV, and has it if the regulator answers (R370, R389 to R391). -/
def Obligations.TemperatureAndSupplies : Prop :=
  ∀ (s : State),
    let limit := signedOf 32 (s.obj 0x2203 2)
    let clamped (t : State) : Prop := t.power.dev = .fault ∧ t.faultN = .low ∧ t.power.clamped = true ∧ t.mem = [] ∧
      t.contexts = [] ∧ t.queues = [] ∧ ∀ d, 1 ≤ d → d ≤ 49 → t.domain d = .off
    let avs (v : Nat) : State := { s with
      outputs := { s.outputs with avs := s.outputs.avs ++ [v] }, power := { s.power with avsAt := some s.cycle } }
    (s.monitors = true →
      (∀ (x : Fin 8) (m : Int), s.power.thermLow = false → limit < m → ∃ t, exec (.thermalWarn x m) s = .next t ∧
        t.power.thermLow = true ∧ (s.imageRuns = true → t.thermN = .low) ∧ t.power.temperature = m ∧ t.mem = s.mem ∧
        t.obj 0x701E 2 = (s.obj 0x701E 2 + 1) % 2 ^ 32) ∧
      (∀ (x : Fin 8) (m : Int), s.power.thermLow = true ∨ m ≤ limit → exec (.thermalWarn x m) s = .next s) ∧
      (∀ m : Int, s.power.thermLow = true → m ≤ limit - 2000 → ∃ t, exec (.thermalClear m) s = .next t ∧
        t.power.thermLow = false ∧ t.thermN = .hiZ ∧ t.power.temperature = m ∧ t.mem = s.mem) ∧
      (∀ m : Int, s.power.thermLow = false ∨ limit - 2000 < m → exec (.thermalClear m) s = .next s) ∧
      (s.power.dev ≠ .reset → s.power.warm ≠ .draining →
        (∀ (x : Fin 8) (m : Int), s.power.tripped = false → signedOf 32 (s.obj 0x2203 3) < m →
          ∃ t, exec (.thermalTrip x m) s = .next t ∧ clamped t ∧ t.power.tripped = true ∧
            t.obj 0x701E 3 = (s.obj 0x701E 3 + 1) % 2 ^ 32) ∧
        (∀ (r : Fin 8) (v g : Nat), s.railTarget r = some g → v * 10 < g * 9 ∨ g * 11 < v * 10 →
          ∃ t, exec (.supplyFault r v) s = .next t ∧ clamped t ∧
            t.obj 0x701E 4 = (s.obj 0x701E 4 + 1) % 2 ^ 32)) ∧
      (∀ (x : Fin 8) (m : Int), s.power.tripped = true ∨ m ≤ signedOf 32 (s.obj 0x2203 3) →
        exec (.thermalTrip x m) s = .next s) ∧
      (∀ (r : Fin 8) (v : Nat), (∀ g, s.railTarget r = some g → g * 9 ≤ v * 10 ∧ v * 10 ≤ g * 11) →
        exec (.supplyFault r v) s = .next s) ∧
      (∀ m : Int, m < limit →
        (s.power.warm ≠ .hot → exec (.temperatureBelowWarning m) s =
          .next { s with power := { s.power with temperature := m } }) ∧
        (s.power.warm = .hot → ∃ t, exec (.temperatureBelowWarning m) s = .next t ∧ t.power.warm ≠ .hot ∧
          (t.power.dev = .reset ∨ t.power.dev = .boot))) ∧
      (∀ m : Int, limit ≤ m → exec (.temperatureBelowWarning m) s = .next s)) ∧
    (s.monitors = false → ∀ (x : Fin 8) (m : Int) (v : Nat), ∀ c ∈ [Instr.thermalWarn x m, .thermalClear m,
      .thermalTrip x m, .supplyFault x v, .temperatureBelowWarning m], exec c s = .next s) ∧
    (s.power.dev ∈ [DevState.config, .ready, .run, .rest, .fault] →
      (∀ c, s.power.avsAt = some c → c + 1000000 ≤ s.cycle) → 650 ≤ s.obj 0x2203 4 → s.obj 0x2203 4 ≤ 850 →
      ∃ v, 650 ≤ v ∧ v ≤ 850 ∧ v ≤ s.obj 0x2203 4 + 10 ∧ s.obj 0x2203 4 ≤ v + 10 ∧
        exec (.avsUpdate true) s = .next ((avs v).setObj 0x2203 4 v) ∧ exec (.avsUpdate false) s = .next (avs v)) ∧
    ((s.power.dev = .boot ∨ s.power.dev = .reset ∨ s.power.dev = .off) ∨
      (∃ c, s.power.avsAt = some c ∧ s.cycle < c + 1000000) → ∀ a, exec (.avsUpdate a) s = .next s)

/-- The boot ROM starts the selected image if it is good, else the other; with none, or a wrong fuse, it raises 0x1001,
0x1002 or 0x1003 and the SX4 is in FAULT; a downloaded image starts on request. The states CONFIG, READY and RUN follow
their requests; an image block lies in the slot that is not running, or with the download, and the next image is the
one that the selection block then names (R367, R369, R382, R385 to R387). -/
def Obligations.BootAndStates : Prop :=
  ∀ (s : State),
    let goes (dev : DevState) (r : Option DevState) : State := { s with
        power := { s.power with dev, request := r }, kpp := { s.kpp with result := 0 } }
    let refused (code : BitVec 8) : State := { s with kpp := { s.kpp with result := code } }
    let fails (t : State) (code : Nat) : Prop := t.power.dev = .fault ∧ t.mem = s.mem ∧
      t.obj 0x7020 code = (s.obj 0x7020 code + 1) % 2 ^ 32
    (s.power.dev = .boot → s.testMode = false →
      let a := s.selected
      let none' (image : Nat) : Prop := s.checkFlash image = .failed ∨ s.checkFlash image = .missing
      (s.fusesOk = false → ∃ t, exec .imageStart s = .next t ∧ fails t 3) ∧
      (s.hasFlash = true → s.fusesOk = true →
        (∀ auth, s.checkFlash a = .good auth → ∃ t, exec .imageStart s = .next t ∧
          t.power.dev = .config ∧ t.obj 0x7F00 1 = a ∧ t.obj 0x7F00 7 = (if auth then 4 else 0) ∧ t.mem = s.mem) ∧
        (∀ auth, none' a → s.checkFlash (3 - a) = .good auth → ∃ t, exec .imageStart s = .next t ∧
          t.power.dev = .config ∧ t.obj 0x7F00 1 = 3 - a ∧ t.obj 0x7F00 7 = (if auth then 12 else 8) ∧
          t.mem = s.mem) ∧
        (none' a → none' (3 - a) → ∃ t, exec .imageStart s = .next t ∧
          fails t (if s.checkFlash a = .failed ∨ s.checkFlash (3 - a) = .failed then 1 else 2))) ∧
      (s.hasFlash = false → s.fusesOk = true → s.downloads = true → exec .imageStart s = .next s) ∧
      (s.hasFlash = false → s.fusesOk = true → s.downloads = false → ∃ t, exec .imageStart s = .next t ∧ fails t 2) ∧
      (s.downloads = true →
        let x := checkImage (fun i => tget s.power.download i 0) s.power.downloadLen s.secure (s.obj 0x7F00 6)
        (s.fusesOk = true → ∀ auth, x = .good auth → ∃ t, exec .stateRequestConfig s = .next t ∧
          t.power.dev = .config ∧ t.obj 0x7F00 7 = s.power.straps.bootSel.toNat + (if auth then 4 else 0) ∧
          t.kpp.result = 0 ∧ t.mem = s.mem) ∧
        (s.fusesOk = false ∨ x = .failed ∨ x = .missing → ∃ t, exec .stateRequestConfig s = .next t ∧
          fails t (if s.fusesOk = false then 3 else if x = .failed then 1 else 2) ∧ t.kpp.result = 0) ∧
        (s.firmwareLocked = false → ∀ l : List Byte, 1 ≤ l.length → l.length ≤ 65536 →
          s.obj 0x7F00 9 + l.length ≤ 0x7F000 → ∃ t, exec (.imageBlockWrite l) s = .next t ∧ t.kpp.result = 0 ∧
            t.mem = s.mem ∧ t.power.flash = s.power.flash ∧
            ∀ k, tget t.power.download k 0 = if s.obj 0x7F00 9 ≤ k ∧ k < s.obj 0x7F00 9 + l.length
              then l.getD (k - s.obj 0x7F00 9) 0 else tget s.power.download k 0))) ∧
    (s.power.dev ≠ .boot ∨ s.testMode = true → exec .imageStart s = .next s) ∧
    ((s.power.dev = .ready → exec .stateRequestConfig s = .next (goes .config none) ∧
        exec .stateRequestRun s = .next (goes .ready (some .run)) ∧
        exec .stateRequestReady s = .next (refused 0x09)) ∧
      (s.power.dev = .config →
        exec .stateRequestReady s = .next (if s.locked then goes .ready none else refused 0x09) ∧
        exec .stateRequestConfig s = .next (refused 0x09) ∧ exec .stateRequestRun s = .next (refused 0x09)) ∧
      (s.power.dev = .run → exec .stateRequestReady s = .next (goes .run (some .ready)) ∧
        exec .stateRequestConfig s = .next (refused 0x09) ∧ exec .stateRequestRun s = .next (refused 0x09)) ∧
      (s.power.dev = .fault → ∀ c ∈ [Instr.stateRequestConfig, .stateRequestReady, .stateRequestRun],
        exec c s = .next (refused 0x09))) ∧
    (s.power.dev ∉ [DevState.boot, .config, .ready, .run, .fault] → ∀ (l : List Byte) (v : BitVec 8),
      ∀ c ∈ [Instr.stateRequestConfig, .stateRequestReady, .stateRequestRun, .imageBlockWrite l, .nextImageWrite v],
        exec c s = .next s) ∧
    (s.keeperServes = true → s.firmwareLocked = true → (∀ l, exec (.imageBlockWrite l) s = .next (refused 0x07)) ∧
      ∀ v, exec (.nextImageWrite v) s = .next (refused 0x07)) ∧
    (s.keeperServes = true → s.firmwareLocked = false →
      (∀ l : List Byte, 1 ≤ l.length → l.length ≤ 65536 → 0x7F000 < s.obj 0x7F00 9 + l.length →
        exec (.imageBlockWrite l) s = .next (refused 0x06)) ∧
      ∀ v : BitVec 8, v ≠ 1 → v ≠ 2 → exec (.nextImageWrite v) s = .next (refused 0x06)) ∧
    (s.firmwareRuns = true → s.firmwareLocked = false → s.hasFlash = true →
      (∀ l : List Byte, 1 ≤ l.length → l.length ≤ 65536 → s.obj 0x7F00 9 + l.length ≤ 0x7F000 →
        let base := imageBase (3 - s.obj 0x7F00 1) + s.obj 0x7F00 9
        ∃ t, exec (.imageBlockWrite l) s = .next t ∧ t.kpp.result = 0 ∧ t.mem = s.mem ∧
          (∀ i, i < l.length → t.flashByte (base + i) = l.getD i 0) ∧
          ∀ k, (k < base ∨ base + l.length ≤ k) → t.flashByte k = s.flashByte k) ∧
      (∀ v : BitVec 8, v = 1 ∨ v = 2 →
        (v.toNat ≠ s.obj 0x7F00 2 → ∃ t, exec (.nextImageWrite v) s = .next t ∧
          t.obj 0x7F00 2 = v.toNat ∧ t.selected = v.toNat ∧ t.kpp.result = 0 ∧ t.mem = s.mem) ∧
        (v.toNat = s.obj 0x7F00 2 → exec (.nextImageWrite v) s = .next (refused 0))))

/-! ### Trace and debug -/

/-- With the funnel's source on, a timestamp packet leaves at the next multiple of its period that has none yet and when
trace is enabled, on the pins or into the trace ring; a source that emits, has losses and has room puts one overflow
packet ahead of its others and starts its losses anew; that packet, and enabling for every source, clears the note that
0x0F01 has been raised; the trace ring's base and size are multiples of 4 KiB and start the total anew (R394, R398, R400,
R403; the partitions these packets act for are log 76). Setting the debug lock writes its object, records it
as set once, and on a part with SECURE set puts the TAP into test-logic reset; a TAP that is held does nothing;
otherwise its instructions act out of reset, and the manufacturing test mode stops the model (R306, R381, R404,
R405). -/
def Obligations.TraceAndDebug : Prop :=
  (∀ (s : State),
    let n := 2 ^ s.obj 0x7800 3
    let u := s.advance (if s.trace.stamped = some (roundUp s.cycle n) then roundUp s.cycle n + n else roundUp s.cycle n)
    ((s.emits 63 deviceWide = true → s.obj 0x7800 2 = 0 → exec .timestamp s =
        .next { u with outputs := { u.outputs with trace := s.outputs.trace ++ [timestampOf u] },
                       trace := { s.trace with stamped := some u.cycle } }) ∧
      (s.emits 63 deviceWide = true → s.obj 0x7800 2 ≠ 0 → s.obj 0x7800 4 < 2 ^ 48 → 8192 ≤ s.obj 0x7800 5 →
        s.obj 0x7800 5 < 2 ^ 32 → s.matrix.requests = [] → ∃ t, exec .timestamp s = .next t ∧
        t.trace.ringTotal = s.trace.ringTotal + 16 ∧ t.outputs.trace = s.outputs.trace) ∧
      (s.emits 63 deviceWide = true → s.obj 0x7800 2 ≠ 0 → s.obj 0x7800 5 < 8192 → exec .timestamp s = .next u) ∧
      (s.emits 63 deviceWide = false → exec .timestamp s = .next u)) ∧
    (s.keeperServes = true → s.obj 0x7800 1 = 0 → s.obj 0x7800 2 = 0 →
      ∃ t, exec .traceEnable s = .next t ∧ t.obj 0x7800 1 = 1 ∧ t.trace.warned = [] ∧ t.kpp.result = 0 ∧
        t.trace.losses = s.trace.losses ∧ t.trace.buffers = s.trace.buffers ∧
        t.outputs.trace = s.outputs.trace ++
          (if (s.setObj 0x7800 1 1).emits 63 deviceWide then [timestampOf s] else []) ∧ t.mem = s.mem) ∧
    (s.keeperServes = true → s.obj 0x7800 1 = 1 → ∃ t, exec .traceEnable s = .next t ∧ t.obj 0x7800 1 = 1 ∧
      t.trace = s.trace ∧ t.outputs = s.outputs ∧ t.kpp.result = 0 ∧ t.mem = s.mem) ∧
    (∀ i : Fin 64,
      let x := tget s.trace.losses i (0, 0)
      let b := tget s.trace.buffers i []
      let who := s.overflowWho i
      (s.emits i who = true → x.1 ≠ 0 → b.length < 64 → ∃ t p, exec (.overflowPacket i) s = .next t ∧
        t = { s with trace := t.trace } ∧ tget t.trace.losses i (0, 0) = (0, 0) ∧ tget t.trace.buffers i [] = p :: b ∧
        (∀ j : Nat, j ∈ t.trace.warned ↔ j ∈ s.trace.warned ∧ j ≠ i.val) ∧
        p = [BitVec.ofNat 8 (128 + i.val), 0, who, 0] ++ natLe x.2 4 ++ natLe x.1 4 ++ zeros 4 ∧
        ∀ j, j ≠ i.val → tget t.trace.buffers j [] = tget s.trace.buffers j []) ∧
      (s.emits i who = false ∨ x.1 = 0 ∨ 64 ≤ b.length → exec (.overflowPacket i) s = .next s)) ∧
    (∀ v : W64, s.keeperServes = true →
      (v.toNat % 4096 = 0 → v.toNat < 2 ^ 48 → ∃ t, exec (.traceRingConfig .base v) s = .next t ∧
        t.obj 0x7800 4 = v.toNat ∧ t.trace.ringTotal = 0 ∧ t.kpp.result = 0 ∧ t.mem = s.mem) ∧
      (v.toNat % 4096 = 0 → v.toNat ≠ 4096 → v.toNat < 2 ^ 32 → ∃ t, exec (.traceRingConfig .size v) s = .next t ∧
        t.obj 0x7800 5 = v.toNat ∧ t.trace.ringTotal = 0 ∧ t.kpp.result = 0 ∧ t.mem = s.mem) ∧
      (v.toNat % 4096 ≠ 0 → ∀ r, exec (.traceRingConfig r v) s =
        .next { s with kpp := { s.kpp with result := 0x06 } })) ∧
    (s.keeperServes = false → exec .traceEnable s = .next s ∧ ∀ r v, exec (.traceRingConfig r v) s = .next s)) ∧
  (∀ (s : State),
    (s.keeperServes = true → objKey 0x1202 0 ∉ s.onceSet → ∃ t, exec .debugLock s = .next t ∧ t.obj 0x1202 0 = 1 ∧
      objKey 0x1202 0 ∈ t.onceSet ∧ t.kpp.result = 0 ∧ t.mem = s.mem ∧
      t.jtag = (if s.obj 0x7F00 5 ≠ 0 then { inReset := true } else s.jtag)) ∧
    (s.keeperServes = true → objKey 0x1202 0 ∈ s.onceSet → s.obj 0x1202 0 = 1 →
      exec .debugLock s = .next { s with kpp := { s.kpp with result := 0 } }) ∧
    (s.keeperServes = false → exec .debugLock s = .next s) ∧
    (s.tapHeld = true → ∀ op, exec (.jtagAccess op) s = .next s) ∧
    (s.tapHeld = false →
      exec (.jtagAccess .trstLow) s = .next { s with jtag := { inReset := true } } ∧
      exec (.jtagAccess .trstHigh) s = .next { s with jtag := { s.jtag with inReset := false } } ∧
      (s.jtag.inReset = true → ∀ off l i, exec (.jtagAccess (.writeSram off l)) s = .next s ∧
        exec (.jtagAccess (.instruction i)) s = .next s) ∧
      (s.jtag.inReset = false →
        (∀ i, exec (.jtagAccess (.instruction i)) s = .next { s with jtag := { s.jtag with instruction := i } }) ∧
        (∀ off l, ∃ t u, exec (.jtagAccess (.writeSram off l)) s = .next t ∧ t.mem = s.mem ∧ t.objs = s.objs ∧
          exec (.jtagAccess (.readSram off l.length)) t = .next u ∧ u.jtag.readBack = l) ∧
        (s.testMode = true → exec (.jtagAccess .manufacturingTest) s = .fault .manufacturingTestMode))))

/-! ### Invariants -/

/-- The state after reset is well formed, and holds what a cold reset leaves: BOOT, no command waiting, no thread, the
Tracker IDLE, every object at its reset value, every domain on (R84, R88, R360, R378, R380). -/
def Obligations.ResetIsWellFormed : Prop :=
  State.reset.wf ∧ State.reset.pending = [] ∧ State.reset.power.dev = .boot ∧ State.reset.tracker.state = .idle ∧
    (∀ n, (State.reset.context n).state = .free) ∧ (∀ c, State.reset.counter c = 0) ∧
    (∀ q, (State.reset.queue q).tail = 0 ∧ (State.reset.queue q).run = none) ∧ (∀ d, State.reset.isOn d = true) ∧
    ∀ i j, State.reset.obj i j = objDefault i j

/-- A step that runs an instruction of a thread's program keeps the state's tables in their canonical form: memory,
contexts, queues and counters each hold rising keys and no entry equal to its default. -/
def Obligations.ThreadsKeepTablesCanonical : Prop :=
  ∀ (s t : State) (c : Instr) (rest : List Instr), s.wf → s.pending = c :: rest → dantoEncode c ≠ none →
    step s = .next t → t.wf
end

