-- ==== Sys2Proof/Laws/Danto.lean ====
section
/-! SUPPORT. The fields of an instruction word read back as they were put in (Table TD-5). -/

namespace Sys2Proof.Machine

theorem dantoWord_fields (op : Nat) (d a b : Reg) (i : Imm) (h : op < 256) :
    bits (dantoWord op d a b i) 63 56 = op ∧ bits (dantoWord op d a b i) 55 51 = d.toNat ∧
    bits (dantoWord op d a b i) 50 46 = a.toNat ∧ bits (dantoWord op d a b i) 45 41 = b.toNat ∧
    bits (dantoWord op d a b i) 40 0 = i.toNat ∧ dantoWord op d a b i < 2 ^ 64 := by
  have hd := d.isLt; have ha := a.isLt; have hb := b.isLt; have hi := i.isLt
  unfold bits dantoWord
  simp only [Nat.shiftRight_eq_div_pow]
  refine ⟨?_, ?_, ?_, ?_, ?_, ?_⟩ <;> omega

theorem dantoWord_op (op : Nat) (d a b : Reg) (i : Imm) (h : op < 256) : bits (dantoWord op d a b i) 63 56 = op :=
  (dantoWord_fields op d a b i h).1

theorem dantoWord_d (op : Nat) (d a b : Reg) (i : Imm) (h : op < 256) : bits (dantoWord op d a b i) 55 51 = d.toNat :=
  (dantoWord_fields op d a b i h).2.1

theorem dantoWord_a (op : Nat) (d a b : Reg) (i : Imm) (h : op < 256) : bits (dantoWord op d a b i) 50 46 = a.toNat :=
  (dantoWord_fields op d a b i h).2.2.1

theorem dantoWord_b (op : Nat) (d a b : Reg) (i : Imm) (h : op < 256) : bits (dantoWord op d a b i) 45 41 = b.toNat :=
  (dantoWord_fields op d a b i h).2.2.2.1

theorem dantoWord_i (op : Nat) (d a b : Reg) (i : Imm) (h : op < 256) : bits (dantoWord op d a b i) 40 0 = i.toNat :=
  (dantoWord_fields op d a b i h).2.2.2.2.1

theorem dantoWord_lt (op : Nat) (d a b : Reg) (i : Imm) (h : op < 256) : dantoWord op d a b i < 2 ^ 64 :=
  (dantoWord_fields op d a b i h).2.2.2.2.2

/-- Decoding an encoded word, by its fields alone. -/
theorem dantoOf_word (th : Thread) (op : Nat) (d a b : Reg) (i : Imm) (h : op < 256) :
    dantoOf th (dantoWord op d a b i) =
      if illegalFields op d.toNat a.toNat b.toNat i.toNat then none else dantoFields op th d a b i := by
  generalize hw : dantoWord op d a b i = w
  have h1 := dantoWord_op op d a b i h
  have h2 := dantoWord_d op d a b i h
  have h3 := dantoWord_a op d a b i h
  have h4 := dantoWord_b op d a b i h
  have h5 := dantoWord_i op d a b i h
  rw [hw] at h1 h2 h3 h4 h5
  unfold dantoOf illegalWord
  rw [h1, h2, h3, h4, h5]
  simp only [BitVec.ofNat_toNat, BitVec.setWidth_eq]

/-- A word of 64 bits is the word of its fields. -/
theorem dantoWord_of_bits (w : Nat) (h : w < 2 ^ 64) :
    dantoWord (bits w 63 56) (BitVec.ofNat 5 (bits w 55 51)) (BitVec.ofNat 5 (bits w 50 46))
      (BitVec.ofNat 5 (bits w 45 41)) (BitVec.ofNat 41 (bits w 40 0)) = w := by
  unfold bits dantoWord
  simp only [BitVec.toNat_ofNat, Nat.shiftRight_eq_div_pow]
  omega

end Sys2Proof.Machine
end

