-- ==== Sys2Proof/Laws/Tables.lean ====
section
/-! SUPPORT. Laws of the sparse tables: a read after a write, and the canonical form. -/

namespace Sys2Proof.Machine

variable {α : Type}

theorem tget_tdel_other (m : Table α) (k j : Nat) (d : α) (h : j ≠ k) : tget (tdel m k) j d = tget m j d := by
  induction m with
  | nil => rfl
  | cons e r ih =>
    obtain ⟨i, w⟩ := e
    unfold tdel at ih ⊢
    by_cases hk : i = k
    · subst hk
      have : ¬ i = j := fun e => h e.symm
      simp [tget, this, ih]
    · by_cases hj : i = j
      · subst hj; simp [tget, hk]
      · simp [tget, hk, hj, ih]

theorem tget_tdel_same (m : Table α) (k : Nat) (d : α) : tget (tdel m k) k d = d := by
  induction m with
  | nil => rfl
  | cons e r ih =>
    obtain ⟨i, w⟩ := e
    unfold tdel at ih ⊢
    by_cases hk : i = k
    · simp [hk, ih]
    · simp [tget, hk, ih]

/-- A read of the key written gives the value written. -/
@[simp] theorem tget_tset_same [DecidableEq α] (m : Table α) (k : Nat) (v d : α) : tget (tset m k v d) k d = v := by
  induction m with
  | nil => by_cases h : v = d <;> simp [tset, tget, h]
  | cons e r ih =>
    obtain ⟨i, w⟩ := e
    by_cases h1 : i < k
    · have : i ≠ k := by omega
      simp [tset, tget, h1, this, ih]
    · by_cases hv : v = d
      · subst hv; simp [tset, h1, tget_tdel_same]
      · simp [tset, h1, hv, tget]

/-- A read of another key is unchanged. -/
@[simp] theorem tget_tset_other [DecidableEq α] (m : Table α) (k j : Nat) (v d e : α) (h : j ≠ k) :
    tget (tset m k v d) j e = tget m j e := by
  have hs : ¬ k = j := fun x => h x.symm
  induction m with
  | nil => by_cases hv : v = d <;> simp [tset, tget, hv, hs]
  | cons x r ih =>
    obtain ⟨i, w⟩ := x
    by_cases h1 : i < k
    · rw [tset, if_pos h1]
      by_cases hj : i = j <;> simp [tget, hj, ih]
    · by_cases hv : v = d
      · simp [tset, h1, hv, tget_tdel_other _ _ _ _ h]
      · simp [tset, h1, hv, tget_tdel_other _ _ _ _ h, tget, hs]

/-- A read of any key after a write. -/
theorem tget_tset [DecidableEq α] (m : Table α) (k j : Nat) (v d : α) :
    tget (tset m k v d) j d = if j = k then v else tget m j d := by
  by_cases h : j = k
  · subst h; simp
  · simp [h]

/-! ### The canonical form -/

theorem tsorted_tail {e : Nat × α} {r : Table α} (h : tsorted (e :: r) = true) : tsorted r = true := by
  cases r with
  | nil => rfl
  | cons f r => simp [tsorted] at h; exact h.2

theorem tsorted_lt {j : Nat} {w : α} {r : Table α} (h : tsorted ((j, w) :: r) = true) :
    ∀ e ∈ r, j < e.1 := by
  induction r generalizing j w with
  | nil => simp
  | cons f r ih =>
    obtain ⟨i, x⟩ := f
    simp [tsorted] at h
    intro e he
    rcases List.mem_cons.1 he with rfl | he
    · exact h.1
    · have := ih h.2 e he; omega

theorem tsorted_cons {j : Nat} {w : α} {r : Table α} (hr : tsorted r = true) (h : ∀ e ∈ r, j < e.1) :
    tsorted ((j, w) :: r) = true := by
  cases r with
  | nil => rfl
  | cons f r => obtain ⟨i, x⟩ := f; simp [tsorted, hr]; exact h (i, x) (by simp)

theorem tsorted_filter (p : Nat × α → Bool) {m : Table α} (h : tsorted m = true) : tsorted (m.filter p) = true := by
  induction m with
  | nil => rfl
  | cons e r ih =>
    obtain ⟨i, w⟩ := e
    have ht := ih (tsorted_tail h)
    by_cases hp : p (i, w)
    · simp only [List.filter_cons, hp, if_true]
      exact tsorted_cons ht fun e he => tsorted_lt h e (List.mem_filter.1 he).1
    · simpa [List.filter_cons, hp] using ht

theorem mem_tset [DecidableEq α] {m : Table α} {k : Nat} {v d : α} {e : Nat × α} (h : e ∈ tset m k v d) :
    (e = (k, v) ∧ v ≠ d) ∨ e ∈ m := by
  induction m with
  | nil => by_cases hv : v = d <;> simp_all [tset]
  | cons x r ih =>
    obtain ⟨i, w⟩ := x
    by_cases h1 : i < k
    · simp only [tset, h1, if_true, List.mem_cons] at h ⊢
      rcases h with h | h
      · exact .inr (.inl h)
      · rcases ih h with h | h
        · exact .inl h
        · exact .inr (.inr h)
    · by_cases hv : v = d
      · simp only [tset, h1, hv, if_false, if_true, tdel] at h
        exact .inr (List.mem_filter.1 h).1
      · simp only [tset, h1, hv, if_false, tdel, List.mem_cons] at h
        rcases h with h | h
        · exact .inl ⟨h, hv⟩
        · exact .inr (List.mem_filter.1 h).1

theorem tsorted_tset [DecidableEq α] {m : Table α} (k : Nat) (v d : α) (h : tsorted m = true) :
    tsorted (tset m k v d) = true := by
  induction m with
  | nil => by_cases hv : v = d <;> simp [tset, tsorted, hv]
  | cons x r ih =>
    obtain ⟨i, w⟩ := x
    by_cases h1 : i < k
    · simp only [tset, h1, if_true]
      refine tsorted_cons (ih (tsorted_tail h)) fun e he => ?_
      rcases mem_tset he with ⟨rfl, _⟩ | he
      · exact h1
      · exact tsorted_lt h e he
    · by_cases hv : v = d
      · simp only [tset, h1, hv, if_false, if_true]
        exact tsorted_filter _ h
      · simp only [tset, h1, hv, if_false]
        refine tsorted_cons (tsorted_filter _ h) fun e he => ?_
        obtain ⟨hm, hk⟩ := List.mem_filter.1 he
        have hk : e.1 ≠ k := by simpa using hk
        rcases List.mem_cons.1 hm with rfl | hm
        · have : i ≠ k := hk
          show k < i
          omega
        · have := tsorted_lt h e hm; omega

/-- A write keeps the canonical form. -/
theorem twf_tset [DecidableEq α] {m : Table α} (k : Nat) (v d : α) (h : twf d m = true) :
    twf d (tset m k v d) = true := by
  simp only [twf, Bool.and_eq_true, List.all_eq_true, decide_eq_true_eq] at h ⊢
  refine ⟨tsorted_tset k v d h.1, fun e he => ?_⟩
  rcases mem_tset he with ⟨rfl, hv⟩ | he
  · exact hv
  · exact h.2 e he

/-- Dropping a span keeps the canonical form. -/
theorem twf_tdrop [DecidableEq α] {m : Table α} (lo len : Nat) (d : α) (h : twf d m = true) :
    twf d (tdrop m lo len) = true := by
  simp only [twf, Bool.and_eq_true, List.all_eq_true, decide_eq_true_eq] at h ⊢
  exact ⟨tsorted_filter _ h.1, fun e he => h.2 e (List.mem_filter.1 he).1⟩

/-- A read after a span is dropped. -/
theorem tget_tdrop (m : Table α) (lo len k : Nat) (d : α) :
    tget (tdrop m lo len) k d = if lo ≤ k ∧ k < lo + len then d else tget m k d := by
  induction m with
  | nil => simp [tdrop, tget]
  | cons e r ih =>
    obtain ⟨i, w⟩ := e
    unfold tdrop at ih ⊢
    by_cases hs : lo ≤ i ∧ i < lo + len
    · simp only [List.filter_cons, hs.1, hs.2, decide_true, Bool.and_self, Bool.not_true, Bool.false_eq_true, if_false, ih,
        tget]
      by_cases hk : i = k
      · subst hk; simp [hs.1, hs.2]
      · simp [hk]
    · have hd : (!(decide (lo ≤ i) && decide (i < lo + len))) = true := by
        simp only [Bool.not_eq_true', Bool.and_eq_false_iff, decide_eq_false_iff_not]; omega
      simp only [List.filter_cons, hd, if_true, tget, ih]
      by_cases hk : i = k
      · subst hk; simp [hs]
      · simp [hk]

end Sys2Proof.Machine
end

