-- ==== Sys2Proof/Laws/State.lean ====
section
/-! SUPPORT. One lemma per field per update of the state, and the reads after the writes of its named updates. -/

namespace Sys2Proof.Machine

/-! ### `setObj` -/

@[simp] theorem State.setObj_pending (s : State) (i j v : Nat) : (s.setObj i j v).pending = s.pending := rfl
@[simp] theorem State.setObj_cycle (s : State) (i j v : Nat) : (s.setObj i j v).cycle = s.cycle := rfl
@[simp] theorem State.setObj_tracker (s : State) (i j v : Nat) : (s.setObj i j v).tracker = s.tracker := rfl
@[simp] theorem State.setObj_almanac (s : State) (i j v : Nat) : (s.setObj i j v).almanac = s.almanac := rfl
@[simp] theorem State.setObj_onceSet (s : State) (i j v : Nat) : (s.setObj i j v).onceSet = s.onceSet := rfl
@[simp] theorem State.setObj_mem (s : State) (i j v : Nat) : (s.setObj i j v).mem = s.mem := rfl
@[simp] theorem State.setObj_queues (s : State) (i j v : Nat) : (s.setObj i j v).queues = s.queues := rfl
@[simp] theorem State.setObj_asking (s : State) (i j v : Nat) : (s.setObj i j v).asking = s.asking := rfl
@[simp] theorem State.setObj_contexts (s : State) (i j v : Nat) : (s.setObj i j v).contexts = s.contexts := rfl
@[simp] theorem State.setObj_counters (s : State) (i j v : Nat) : (s.setObj i j v).counters = s.counters := rfl
@[simp] theorem State.setObj_added (s : State) (i j v : Nat) : (s.setObj i j v).added = s.added := rfl
@[simp] theorem State.setObj_lastIssue (s : State) (i j v : Nat) : (s.setObj i j v).lastIssue = s.lastIssue := rfl
@[simp] theorem State.setObj_lastServed (s : State) (i j v : Nat) : (s.setObj i j v).lastServed = s.lastServed := rfl
@[simp] theorem State.setObj_streams (s : State) (i j v : Nat) : (s.setObj i j v).streams = s.streams := rfl
@[simp] theorem State.setObj_chains (s : State) (i j v : Nat) : (s.setObj i j v).chains = s.chains := rfl
@[simp] theorem State.setObj_tables (s : State) (i j v : Nat) : (s.setObj i j v).tables = s.tables := rfl
@[simp] theorem State.setObj_matrix (s : State) (i j v : Nat) : (s.setObj i j v).matrix = s.matrix := rfl
@[simp] theorem State.setObj_scrubs (s : State) (i j v : Nat) : (s.setObj i j v).scrubs = s.scrubs := rfl
@[simp] theorem State.setObj_links (s : State) (i j v : Nat) : (s.setObj i j v).links = s.links := rfl
@[simp] theorem State.setObj_remote (s : State) (i j v : Nat) : (s.setObj i j v).remote = s.remote := rfl
@[simp] theorem State.setObj_nextTag (s : State) (i j v : Nat) : (s.setObj i j v).nextTag = s.nextTag := rfl
@[simp] theorem State.setObj_retired (s : State) (i j v : Nat) : (s.setObj i j v).retired = s.retired := rfl
@[simp] theorem State.setObj_kpp (s : State) (i j v : Nat) : (s.setObj i j v).kpp = s.kpp := rfl
@[simp] theorem State.setObj_alerts (s : State) (i j v : Nat) : (s.setObj i j v).alerts = s.alerts := rfl
@[simp] theorem State.setObj_faults (s : State) (i j v : Nat) : (s.setObj i j v).faults = s.faults := rfl
@[simp] theorem State.setObj_host (s : State) (i j v : Nat) : (s.setObj i j v).host = s.host := rfl
@[simp] theorem State.setObj_power (s : State) (i j v : Nat) : (s.setObj i j v).power = s.power := rfl
@[simp] theorem State.setObj_trace (s : State) (i j v : Nat) : (s.setObj i j v).trace = s.trace := rfl
@[simp] theorem State.setObj_jtag (s : State) (i j v : Nat) : (s.setObj i j v).jtag = s.jtag := rfl
@[simp] theorem State.setObj_lastOwner (s : State) (i j v : Nat) : (s.setObj i j v).lastOwner = s.lastOwner := rfl
@[simp] theorem State.setObj_captured (s : State) (i j v : Nat) : (s.setObj i j v).captured = s.captured := rfl
@[simp] theorem State.setObj_outputs (s : State) (i j v : Nat) : (s.setObj i j v).outputs = s.outputs := rfl
@[simp] theorem State.setObj_freeCtr (s : State) (i j v : Nat) : (s.setObj i j v).freeCtr = s.freeCtr := rfl

/-! ### `setQueue` -/

@[simp] theorem State.setQueue_pending (s : State) (q : Nat) (v : Queue) : (s.setQueue q v).pending = s.pending := rfl
@[simp] theorem State.setQueue_cycle (s : State) (q : Nat) (v : Queue) : (s.setQueue q v).cycle = s.cycle := rfl
@[simp] theorem State.setQueue_tracker (s : State) (q : Nat) (v : Queue) : (s.setQueue q v).tracker = s.tracker := rfl
@[simp] theorem State.setQueue_almanac (s : State) (q : Nat) (v : Queue) : (s.setQueue q v).almanac = s.almanac := rfl
@[simp] theorem State.setQueue_objs (s : State) (q : Nat) (v : Queue) : (s.setQueue q v).objs = s.objs := rfl
@[simp] theorem State.setQueue_onceSet (s : State) (q : Nat) (v : Queue) : (s.setQueue q v).onceSet = s.onceSet := rfl
@[simp] theorem State.setQueue_mem (s : State) (q : Nat) (v : Queue) : (s.setQueue q v).mem = s.mem := rfl
@[simp] theorem State.setQueue_contexts (s : State) (q : Nat) (v : Queue) : (s.setQueue q v).contexts = s.contexts := rfl
@[simp] theorem State.setQueue_counters (s : State) (q : Nat) (v : Queue) : (s.setQueue q v).counters = s.counters := rfl
@[simp] theorem State.setQueue_added (s : State) (q : Nat) (v : Queue) : (s.setQueue q v).added = s.added := rfl
@[simp] theorem State.setQueue_lastIssue (s : State) (q : Nat) (v : Queue) : (s.setQueue q v).lastIssue = s.lastIssue := rfl
@[simp] theorem State.setQueue_lastServed (s : State) (q : Nat) (v : Queue) : (s.setQueue q v).lastServed = s.lastServed := rfl
@[simp] theorem State.setQueue_streams (s : State) (q : Nat) (v : Queue) : (s.setQueue q v).streams = s.streams := rfl
@[simp] theorem State.setQueue_chains (s : State) (q : Nat) (v : Queue) : (s.setQueue q v).chains = s.chains := rfl
@[simp] theorem State.setQueue_tables (s : State) (q : Nat) (v : Queue) : (s.setQueue q v).tables = s.tables := rfl
@[simp] theorem State.setQueue_matrix (s : State) (q : Nat) (v : Queue) : (s.setQueue q v).matrix = s.matrix := rfl
@[simp] theorem State.setQueue_scrubs (s : State) (q : Nat) (v : Queue) : (s.setQueue q v).scrubs = s.scrubs := rfl
@[simp] theorem State.setQueue_links (s : State) (q : Nat) (v : Queue) : (s.setQueue q v).links = s.links := rfl
@[simp] theorem State.setQueue_remote (s : State) (q : Nat) (v : Queue) : (s.setQueue q v).remote = s.remote := rfl
@[simp] theorem State.setQueue_nextTag (s : State) (q : Nat) (v : Queue) : (s.setQueue q v).nextTag = s.nextTag := rfl
@[simp] theorem State.setQueue_retired (s : State) (q : Nat) (v : Queue) : (s.setQueue q v).retired = s.retired := rfl
@[simp] theorem State.setQueue_kpp (s : State) (q : Nat) (v : Queue) : (s.setQueue q v).kpp = s.kpp := rfl
@[simp] theorem State.setQueue_alerts (s : State) (q : Nat) (v : Queue) : (s.setQueue q v).alerts = s.alerts := rfl
@[simp] theorem State.setQueue_faults (s : State) (q : Nat) (v : Queue) : (s.setQueue q v).faults = s.faults := rfl
@[simp] theorem State.setQueue_host (s : State) (q : Nat) (v : Queue) : (s.setQueue q v).host = s.host := rfl
@[simp] theorem State.setQueue_power (s : State) (q : Nat) (v : Queue) : (s.setQueue q v).power = s.power := rfl
@[simp] theorem State.setQueue_trace (s : State) (q : Nat) (v : Queue) : (s.setQueue q v).trace = s.trace := rfl
@[simp] theorem State.setQueue_jtag (s : State) (q : Nat) (v : Queue) : (s.setQueue q v).jtag = s.jtag := rfl
@[simp] theorem State.setQueue_lastOwner (s : State) (q : Nat) (v : Queue) : (s.setQueue q v).lastOwner = s.lastOwner := rfl
@[simp] theorem State.setQueue_captured (s : State) (q : Nat) (v : Queue) : (s.setQueue q v).captured = s.captured := rfl
@[simp] theorem State.setQueue_outputs (s : State) (q : Nat) (v : Queue) : (s.setQueue q v).outputs = s.outputs := rfl
@[simp] theorem State.setQueue_freeCtr (s : State) (q : Nat) (v : Queue) : (s.setQueue q v).freeCtr = s.freeCtr := rfl

/-! ### `setContext` -/

@[simp] theorem State.setContext_pending (s : State) (n : Nat) (c : Context) : (s.setContext n c).pending = s.pending := rfl
@[simp] theorem State.setContext_cycle (s : State) (n : Nat) (c : Context) : (s.setContext n c).cycle = s.cycle := rfl
@[simp] theorem State.setContext_tracker (s : State) (n : Nat) (c : Context) : (s.setContext n c).tracker = s.tracker := rfl
@[simp] theorem State.setContext_almanac (s : State) (n : Nat) (c : Context) : (s.setContext n c).almanac = s.almanac := rfl
@[simp] theorem State.setContext_objs (s : State) (n : Nat) (c : Context) : (s.setContext n c).objs = s.objs := rfl
@[simp] theorem State.setContext_onceSet (s : State) (n : Nat) (c : Context) : (s.setContext n c).onceSet = s.onceSet := rfl
@[simp] theorem State.setContext_mem (s : State) (n : Nat) (c : Context) : (s.setContext n c).mem = s.mem := rfl
@[simp] theorem State.setContext_queues (s : State) (n : Nat) (c : Context) : (s.setContext n c).queues = s.queues := rfl
@[simp] theorem State.setContext_asking (s : State) (n : Nat) (c : Context) : (s.setContext n c).asking = s.asking := rfl
@[simp] theorem State.setContext_counters (s : State) (n : Nat) (c : Context) : (s.setContext n c).counters = s.counters := rfl
@[simp] theorem State.setContext_added (s : State) (n : Nat) (c : Context) : (s.setContext n c).added = s.added := rfl
@[simp] theorem State.setContext_lastIssue (s : State) (n : Nat) (c : Context) : (s.setContext n c).lastIssue = s.lastIssue := rfl
@[simp] theorem State.setContext_lastServed (s : State) (n : Nat) (c : Context) : (s.setContext n c).lastServed = s.lastServed := rfl
@[simp] theorem State.setContext_streams (s : State) (n : Nat) (c : Context) : (s.setContext n c).streams = s.streams := rfl
@[simp] theorem State.setContext_chains (s : State) (n : Nat) (c : Context) : (s.setContext n c).chains = s.chains := rfl
@[simp] theorem State.setContext_tables (s : State) (n : Nat) (c : Context) : (s.setContext n c).tables = s.tables := rfl
@[simp] theorem State.setContext_matrix (s : State) (n : Nat) (c : Context) : (s.setContext n c).matrix = s.matrix := rfl
@[simp] theorem State.setContext_scrubs (s : State) (n : Nat) (c : Context) : (s.setContext n c).scrubs = s.scrubs := rfl
@[simp] theorem State.setContext_links (s : State) (n : Nat) (c : Context) : (s.setContext n c).links = s.links := rfl
@[simp] theorem State.setContext_remote (s : State) (n : Nat) (c : Context) : (s.setContext n c).remote = s.remote := rfl
@[simp] theorem State.setContext_nextTag (s : State) (n : Nat) (c : Context) : (s.setContext n c).nextTag = s.nextTag := rfl
@[simp] theorem State.setContext_retired (s : State) (n : Nat) (c : Context) : (s.setContext n c).retired = s.retired := rfl
@[simp] theorem State.setContext_kpp (s : State) (n : Nat) (c : Context) : (s.setContext n c).kpp = s.kpp := rfl
@[simp] theorem State.setContext_alerts (s : State) (n : Nat) (c : Context) : (s.setContext n c).alerts = s.alerts := rfl
@[simp] theorem State.setContext_faults (s : State) (n : Nat) (c : Context) : (s.setContext n c).faults = s.faults := rfl
@[simp] theorem State.setContext_host (s : State) (n : Nat) (c : Context) : (s.setContext n c).host = s.host := rfl
@[simp] theorem State.setContext_power (s : State) (n : Nat) (c : Context) : (s.setContext n c).power = s.power := rfl
@[simp] theorem State.setContext_trace (s : State) (n : Nat) (c : Context) : (s.setContext n c).trace = s.trace := rfl
@[simp] theorem State.setContext_jtag (s : State) (n : Nat) (c : Context) : (s.setContext n c).jtag = s.jtag := rfl
@[simp] theorem State.setContext_lastOwner (s : State) (n : Nat) (c : Context) : (s.setContext n c).lastOwner = s.lastOwner := rfl
@[simp] theorem State.setContext_captured (s : State) (n : Nat) (c : Context) : (s.setContext n c).captured = s.captured := rfl
@[simp] theorem State.setContext_outputs (s : State) (n : Nat) (c : Context) : (s.setContext n c).outputs = s.outputs := rfl
@[simp] theorem State.setContext_freeCtr (s : State) (n : Nat) (c : Context) : (s.setContext n c).freeCtr = s.freeCtr := rfl

/-! ### `wr8` -/

@[simp] theorem State.wr8_pending (s : State) (k : Nat) (b : Byte) : (s.wr8 k b).pending = s.pending := rfl
@[simp] theorem State.wr8_cycle (s : State) (k : Nat) (b : Byte) : (s.wr8 k b).cycle = s.cycle := rfl
@[simp] theorem State.wr8_tracker (s : State) (k : Nat) (b : Byte) : (s.wr8 k b).tracker = s.tracker := rfl
@[simp] theorem State.wr8_almanac (s : State) (k : Nat) (b : Byte) : (s.wr8 k b).almanac = s.almanac := rfl
@[simp] theorem State.wr8_objs (s : State) (k : Nat) (b : Byte) : (s.wr8 k b).objs = s.objs := rfl
@[simp] theorem State.wr8_onceSet (s : State) (k : Nat) (b : Byte) : (s.wr8 k b).onceSet = s.onceSet := rfl
@[simp] theorem State.wr8_queues (s : State) (k : Nat) (b : Byte) : (s.wr8 k b).queues = s.queues := rfl
@[simp] theorem State.wr8_asking (s : State) (k : Nat) (b : Byte) : (s.wr8 k b).asking = s.asking := rfl
@[simp] theorem State.wr8_contexts (s : State) (k : Nat) (b : Byte) : (s.wr8 k b).contexts = s.contexts := rfl
@[simp] theorem State.wr8_counters (s : State) (k : Nat) (b : Byte) : (s.wr8 k b).counters = s.counters := rfl
@[simp] theorem State.wr8_added (s : State) (k : Nat) (b : Byte) : (s.wr8 k b).added = s.added := rfl
@[simp] theorem State.wr8_lastIssue (s : State) (k : Nat) (b : Byte) : (s.wr8 k b).lastIssue = s.lastIssue := rfl
@[simp] theorem State.wr8_lastServed (s : State) (k : Nat) (b : Byte) : (s.wr8 k b).lastServed = s.lastServed := rfl
@[simp] theorem State.wr8_streams (s : State) (k : Nat) (b : Byte) : (s.wr8 k b).streams = s.streams := rfl
@[simp] theorem State.wr8_chains (s : State) (k : Nat) (b : Byte) : (s.wr8 k b).chains = s.chains := rfl
@[simp] theorem State.wr8_tables (s : State) (k : Nat) (b : Byte) : (s.wr8 k b).tables = s.tables := rfl
@[simp] theorem State.wr8_matrix (s : State) (k : Nat) (b : Byte) : (s.wr8 k b).matrix = s.matrix := rfl
@[simp] theorem State.wr8_scrubs (s : State) (k : Nat) (b : Byte) : (s.wr8 k b).scrubs = s.scrubs := rfl
@[simp] theorem State.wr8_links (s : State) (k : Nat) (b : Byte) : (s.wr8 k b).links = s.links := rfl
@[simp] theorem State.wr8_remote (s : State) (k : Nat) (b : Byte) : (s.wr8 k b).remote = s.remote := rfl
@[simp] theorem State.wr8_nextTag (s : State) (k : Nat) (b : Byte) : (s.wr8 k b).nextTag = s.nextTag := rfl
@[simp] theorem State.wr8_retired (s : State) (k : Nat) (b : Byte) : (s.wr8 k b).retired = s.retired := rfl
@[simp] theorem State.wr8_kpp (s : State) (k : Nat) (b : Byte) : (s.wr8 k b).kpp = s.kpp := rfl
@[simp] theorem State.wr8_alerts (s : State) (k : Nat) (b : Byte) : (s.wr8 k b).alerts = s.alerts := rfl
@[simp] theorem State.wr8_faults (s : State) (k : Nat) (b : Byte) : (s.wr8 k b).faults = s.faults := rfl
@[simp] theorem State.wr8_host (s : State) (k : Nat) (b : Byte) : (s.wr8 k b).host = s.host := rfl
@[simp] theorem State.wr8_power (s : State) (k : Nat) (b : Byte) : (s.wr8 k b).power = s.power := rfl
@[simp] theorem State.wr8_trace (s : State) (k : Nat) (b : Byte) : (s.wr8 k b).trace = s.trace := rfl
@[simp] theorem State.wr8_jtag (s : State) (k : Nat) (b : Byte) : (s.wr8 k b).jtag = s.jtag := rfl
@[simp] theorem State.wr8_lastOwner (s : State) (k : Nat) (b : Byte) : (s.wr8 k b).lastOwner = s.lastOwner := rfl
@[simp] theorem State.wr8_captured (s : State) (k : Nat) (b : Byte) : (s.wr8 k b).captured = s.captured := rfl
@[simp] theorem State.wr8_outputs (s : State) (k : Nat) (b : Byte) : (s.wr8 k b).outputs = s.outputs := rfl
@[simp] theorem State.wr8_freeCtr (s : State) (k : Nat) (b : Byte) : (s.wr8 k b).freeCtr = s.freeCtr := rfl

/-! ### `zeroSpan` -/

@[simp] theorem State.zeroSpan_pending (s : State) (k len : Nat) : (s.zeroSpan k len).pending = s.pending := rfl
@[simp] theorem State.zeroSpan_cycle (s : State) (k len : Nat) : (s.zeroSpan k len).cycle = s.cycle := rfl
@[simp] theorem State.zeroSpan_tracker (s : State) (k len : Nat) : (s.zeroSpan k len).tracker = s.tracker := rfl
@[simp] theorem State.zeroSpan_almanac (s : State) (k len : Nat) : (s.zeroSpan k len).almanac = s.almanac := rfl
@[simp] theorem State.zeroSpan_objs (s : State) (k len : Nat) : (s.zeroSpan k len).objs = s.objs := rfl
@[simp] theorem State.zeroSpan_onceSet (s : State) (k len : Nat) : (s.zeroSpan k len).onceSet = s.onceSet := rfl
@[simp] theorem State.zeroSpan_queues (s : State) (k len : Nat) : (s.zeroSpan k len).queues = s.queues := rfl
@[simp] theorem State.zeroSpan_asking (s : State) (k len : Nat) : (s.zeroSpan k len).asking = s.asking := rfl
@[simp] theorem State.zeroSpan_contexts (s : State) (k len : Nat) : (s.zeroSpan k len).contexts = s.contexts := rfl
@[simp] theorem State.zeroSpan_counters (s : State) (k len : Nat) : (s.zeroSpan k len).counters = s.counters := rfl
@[simp] theorem State.zeroSpan_added (s : State) (k len : Nat) : (s.zeroSpan k len).added = s.added := rfl
@[simp] theorem State.zeroSpan_lastIssue (s : State) (k len : Nat) : (s.zeroSpan k len).lastIssue = s.lastIssue := rfl
@[simp] theorem State.zeroSpan_lastServed (s : State) (k len : Nat) : (s.zeroSpan k len).lastServed = s.lastServed := rfl
@[simp] theorem State.zeroSpan_streams (s : State) (k len : Nat) : (s.zeroSpan k len).streams = s.streams := rfl
@[simp] theorem State.zeroSpan_chains (s : State) (k len : Nat) : (s.zeroSpan k len).chains = s.chains := rfl
@[simp] theorem State.zeroSpan_tables (s : State) (k len : Nat) : (s.zeroSpan k len).tables = s.tables := rfl
@[simp] theorem State.zeroSpan_matrix (s : State) (k len : Nat) : (s.zeroSpan k len).matrix = s.matrix := rfl
@[simp] theorem State.zeroSpan_scrubs (s : State) (k len : Nat) : (s.zeroSpan k len).scrubs = s.scrubs := rfl
@[simp] theorem State.zeroSpan_links (s : State) (k len : Nat) : (s.zeroSpan k len).links = s.links := rfl
@[simp] theorem State.zeroSpan_remote (s : State) (k len : Nat) : (s.zeroSpan k len).remote = s.remote := rfl
@[simp] theorem State.zeroSpan_nextTag (s : State) (k len : Nat) : (s.zeroSpan k len).nextTag = s.nextTag := rfl
@[simp] theorem State.zeroSpan_retired (s : State) (k len : Nat) : (s.zeroSpan k len).retired = s.retired := rfl
@[simp] theorem State.zeroSpan_kpp (s : State) (k len : Nat) : (s.zeroSpan k len).kpp = s.kpp := rfl
@[simp] theorem State.zeroSpan_alerts (s : State) (k len : Nat) : (s.zeroSpan k len).alerts = s.alerts := rfl
@[simp] theorem State.zeroSpan_faults (s : State) (k len : Nat) : (s.zeroSpan k len).faults = s.faults := rfl
@[simp] theorem State.zeroSpan_host (s : State) (k len : Nat) : (s.zeroSpan k len).host = s.host := rfl
@[simp] theorem State.zeroSpan_power (s : State) (k len : Nat) : (s.zeroSpan k len).power = s.power := rfl
@[simp] theorem State.zeroSpan_trace (s : State) (k len : Nat) : (s.zeroSpan k len).trace = s.trace := rfl
@[simp] theorem State.zeroSpan_jtag (s : State) (k len : Nat) : (s.zeroSpan k len).jtag = s.jtag := rfl
@[simp] theorem State.zeroSpan_lastOwner (s : State) (k len : Nat) : (s.zeroSpan k len).lastOwner = s.lastOwner := rfl
@[simp] theorem State.zeroSpan_captured (s : State) (k len : Nat) : (s.zeroSpan k len).captured = s.captured := rfl
@[simp] theorem State.zeroSpan_outputs (s : State) (k len : Nat) : (s.zeroSpan k len).outputs = s.outputs := rfl
@[simp] theorem State.zeroSpan_freeCtr (s : State) (k len : Nat) : (s.zeroSpan k len).freeCtr = s.freeCtr := rfl

/-! ### `addCounter` -/

@[simp] theorem State.addCounter_pending (s : State) (c : Nat) (v : W32) : (s.addCounter c v).pending = s.pending := rfl
@[simp] theorem State.addCounter_cycle (s : State) (c : Nat) (v : W32) : (s.addCounter c v).cycle = s.cycle := rfl
@[simp] theorem State.addCounter_tracker (s : State) (c : Nat) (v : W32) : (s.addCounter c v).tracker = s.tracker := rfl
@[simp] theorem State.addCounter_almanac (s : State) (c : Nat) (v : W32) : (s.addCounter c v).almanac = s.almanac := rfl
@[simp] theorem State.addCounter_objs (s : State) (c : Nat) (v : W32) : (s.addCounter c v).objs = s.objs := rfl
@[simp] theorem State.addCounter_onceSet (s : State) (c : Nat) (v : W32) : (s.addCounter c v).onceSet = s.onceSet := rfl
@[simp] theorem State.addCounter_mem (s : State) (c : Nat) (v : W32) : (s.addCounter c v).mem = s.mem := rfl
@[simp] theorem State.addCounter_queues (s : State) (c : Nat) (v : W32) : (s.addCounter c v).queues = s.queues := rfl
@[simp] theorem State.addCounter_asking (s : State) (c : Nat) (v : W32) : (s.addCounter c v).asking = s.asking := rfl
@[simp] theorem State.addCounter_contexts (s : State) (c : Nat) (v : W32) : (s.addCounter c v).contexts = s.contexts := rfl
@[simp] theorem State.addCounter_lastIssue (s : State) (c : Nat) (v : W32) : (s.addCounter c v).lastIssue = s.lastIssue := rfl
@[simp] theorem State.addCounter_lastServed (s : State) (c : Nat) (v : W32) : (s.addCounter c v).lastServed = s.lastServed := rfl
@[simp] theorem State.addCounter_streams (s : State) (c : Nat) (v : W32) : (s.addCounter c v).streams = s.streams := rfl
@[simp] theorem State.addCounter_chains (s : State) (c : Nat) (v : W32) : (s.addCounter c v).chains = s.chains := rfl
@[simp] theorem State.addCounter_tables (s : State) (c : Nat) (v : W32) : (s.addCounter c v).tables = s.tables := rfl
@[simp] theorem State.addCounter_matrix (s : State) (c : Nat) (v : W32) : (s.addCounter c v).matrix = s.matrix := rfl
@[simp] theorem State.addCounter_scrubs (s : State) (c : Nat) (v : W32) : (s.addCounter c v).scrubs = s.scrubs := rfl
@[simp] theorem State.addCounter_links (s : State) (c : Nat) (v : W32) : (s.addCounter c v).links = s.links := rfl
@[simp] theorem State.addCounter_remote (s : State) (c : Nat) (v : W32) : (s.addCounter c v).remote = s.remote := rfl
@[simp] theorem State.addCounter_nextTag (s : State) (c : Nat) (v : W32) : (s.addCounter c v).nextTag = s.nextTag := rfl
@[simp] theorem State.addCounter_retired (s : State) (c : Nat) (v : W32) : (s.addCounter c v).retired = s.retired := rfl
@[simp] theorem State.addCounter_kpp (s : State) (c : Nat) (v : W32) : (s.addCounter c v).kpp = s.kpp := rfl
@[simp] theorem State.addCounter_alerts (s : State) (c : Nat) (v : W32) : (s.addCounter c v).alerts = s.alerts := rfl
@[simp] theorem State.addCounter_faults (s : State) (c : Nat) (v : W32) : (s.addCounter c v).faults = s.faults := rfl
@[simp] theorem State.addCounter_host (s : State) (c : Nat) (v : W32) : (s.addCounter c v).host = s.host := rfl
@[simp] theorem State.addCounter_power (s : State) (c : Nat) (v : W32) : (s.addCounter c v).power = s.power := rfl
@[simp] theorem State.addCounter_trace (s : State) (c : Nat) (v : W32) : (s.addCounter c v).trace = s.trace := rfl
@[simp] theorem State.addCounter_jtag (s : State) (c : Nat) (v : W32) : (s.addCounter c v).jtag = s.jtag := rfl
@[simp] theorem State.addCounter_lastOwner (s : State) (c : Nat) (v : W32) : (s.addCounter c v).lastOwner = s.lastOwner := rfl
@[simp] theorem State.addCounter_captured (s : State) (c : Nat) (v : W32) : (s.addCounter c v).captured = s.captured := rfl
@[simp] theorem State.addCounter_outputs (s : State) (c : Nat) (v : W32) : (s.addCounter c v).outputs = s.outputs := rfl
@[simp] theorem State.addCounter_freeCtr (s : State) (c : Nat) (v : W32) : (s.addCounter c v).freeCtr = s.freeCtr := rfl

/-! ### `zeroCounter` -/

@[simp] theorem State.zeroCounter_pending (s : State) (c : Nat) : (s.zeroCounter c).pending = s.pending := rfl
@[simp] theorem State.zeroCounter_cycle (s : State) (c : Nat) : (s.zeroCounter c).cycle = s.cycle := rfl
@[simp] theorem State.zeroCounter_tracker (s : State) (c : Nat) : (s.zeroCounter c).tracker = s.tracker := rfl
@[simp] theorem State.zeroCounter_almanac (s : State) (c : Nat) : (s.zeroCounter c).almanac = s.almanac := rfl
@[simp] theorem State.zeroCounter_objs (s : State) (c : Nat) : (s.zeroCounter c).objs = s.objs := rfl
@[simp] theorem State.zeroCounter_onceSet (s : State) (c : Nat) : (s.zeroCounter c).onceSet = s.onceSet := rfl
@[simp] theorem State.zeroCounter_mem (s : State) (c : Nat) : (s.zeroCounter c).mem = s.mem := rfl
@[simp] theorem State.zeroCounter_queues (s : State) (c : Nat) : (s.zeroCounter c).queues = s.queues := rfl
@[simp] theorem State.zeroCounter_asking (s : State) (c : Nat) : (s.zeroCounter c).asking = s.asking := rfl
@[simp] theorem State.zeroCounter_contexts (s : State) (c : Nat) : (s.zeroCounter c).contexts = s.contexts := rfl
@[simp] theorem State.zeroCounter_lastIssue (s : State) (c : Nat) : (s.zeroCounter c).lastIssue = s.lastIssue := rfl
@[simp] theorem State.zeroCounter_lastServed (s : State) (c : Nat) : (s.zeroCounter c).lastServed = s.lastServed := rfl
@[simp] theorem State.zeroCounter_streams (s : State) (c : Nat) : (s.zeroCounter c).streams = s.streams := rfl
@[simp] theorem State.zeroCounter_chains (s : State) (c : Nat) : (s.zeroCounter c).chains = s.chains := rfl
@[simp] theorem State.zeroCounter_tables (s : State) (c : Nat) : (s.zeroCounter c).tables = s.tables := rfl
@[simp] theorem State.zeroCounter_matrix (s : State) (c : Nat) : (s.zeroCounter c).matrix = s.matrix := rfl
@[simp] theorem State.zeroCounter_scrubs (s : State) (c : Nat) : (s.zeroCounter c).scrubs = s.scrubs := rfl
@[simp] theorem State.zeroCounter_links (s : State) (c : Nat) : (s.zeroCounter c).links = s.links := rfl
@[simp] theorem State.zeroCounter_remote (s : State) (c : Nat) : (s.zeroCounter c).remote = s.remote := rfl
@[simp] theorem State.zeroCounter_nextTag (s : State) (c : Nat) : (s.zeroCounter c).nextTag = s.nextTag := rfl
@[simp] theorem State.zeroCounter_retired (s : State) (c : Nat) : (s.zeroCounter c).retired = s.retired := rfl
@[simp] theorem State.zeroCounter_kpp (s : State) (c : Nat) : (s.zeroCounter c).kpp = s.kpp := rfl
@[simp] theorem State.zeroCounter_alerts (s : State) (c : Nat) : (s.zeroCounter c).alerts = s.alerts := rfl
@[simp] theorem State.zeroCounter_faults (s : State) (c : Nat) : (s.zeroCounter c).faults = s.faults := rfl
@[simp] theorem State.zeroCounter_host (s : State) (c : Nat) : (s.zeroCounter c).host = s.host := rfl
@[simp] theorem State.zeroCounter_power (s : State) (c : Nat) : (s.zeroCounter c).power = s.power := rfl
@[simp] theorem State.zeroCounter_trace (s : State) (c : Nat) : (s.zeroCounter c).trace = s.trace := rfl
@[simp] theorem State.zeroCounter_jtag (s : State) (c : Nat) : (s.zeroCounter c).jtag = s.jtag := rfl
@[simp] theorem State.zeroCounter_lastOwner (s : State) (c : Nat) : (s.zeroCounter c).lastOwner = s.lastOwner := rfl
@[simp] theorem State.zeroCounter_captured (s : State) (c : Nat) : (s.zeroCounter c).captured = s.captured := rfl
@[simp] theorem State.zeroCounter_outputs (s : State) (c : Nat) : (s.zeroCounter c).outputs = s.outputs := rfl
@[simp] theorem State.zeroCounter_freeCtr (s : State) (c : Nat) : (s.zeroCounter c).freeCtr = s.freeCtr := rfl

/-! ### `advance` -/

@[simp] theorem State.advance_pending (s : State) (t : Nat) : (s.advance t).pending = s.pending := rfl
@[simp] theorem State.advance_tracker (s : State) (t : Nat) : (s.advance t).tracker = s.tracker := rfl
@[simp] theorem State.advance_almanac (s : State) (t : Nat) : (s.advance t).almanac = s.almanac := rfl
@[simp] theorem State.advance_objs (s : State) (t : Nat) : (s.advance t).objs = s.objs := rfl
@[simp] theorem State.advance_onceSet (s : State) (t : Nat) : (s.advance t).onceSet = s.onceSet := rfl
@[simp] theorem State.advance_mem (s : State) (t : Nat) : (s.advance t).mem = s.mem := rfl
@[simp] theorem State.advance_queues (s : State) (t : Nat) : (s.advance t).queues = s.queues := rfl
@[simp] theorem State.advance_asking (s : State) (t : Nat) : (s.advance t).asking = s.asking := rfl
@[simp] theorem State.advance_contexts (s : State) (t : Nat) : (s.advance t).contexts = s.contexts := rfl
@[simp] theorem State.advance_counters (s : State) (t : Nat) : (s.advance t).counters = s.counters := rfl
@[simp] theorem State.advance_added (s : State) (t : Nat) : (s.advance t).added = s.added := rfl
@[simp] theorem State.advance_lastIssue (s : State) (t : Nat) : (s.advance t).lastIssue = s.lastIssue := rfl
@[simp] theorem State.advance_lastServed (s : State) (t : Nat) : (s.advance t).lastServed = s.lastServed := rfl
@[simp] theorem State.advance_streams (s : State) (t : Nat) : (s.advance t).streams = s.streams := rfl
@[simp] theorem State.advance_chains (s : State) (t : Nat) : (s.advance t).chains = s.chains := rfl
@[simp] theorem State.advance_tables (s : State) (t : Nat) : (s.advance t).tables = s.tables := rfl
@[simp] theorem State.advance_matrix (s : State) (t : Nat) : (s.advance t).matrix = s.matrix := rfl
@[simp] theorem State.advance_scrubs (s : State) (t : Nat) : (s.advance t).scrubs = s.scrubs := rfl
@[simp] theorem State.advance_links (s : State) (t : Nat) : (s.advance t).links = s.links := rfl
@[simp] theorem State.advance_remote (s : State) (t : Nat) : (s.advance t).remote = s.remote := rfl
@[simp] theorem State.advance_nextTag (s : State) (t : Nat) : (s.advance t).nextTag = s.nextTag := rfl
@[simp] theorem State.advance_retired (s : State) (t : Nat) : (s.advance t).retired = s.retired := rfl
@[simp] theorem State.advance_kpp (s : State) (t : Nat) : (s.advance t).kpp = s.kpp := rfl
@[simp] theorem State.advance_alerts (s : State) (t : Nat) : (s.advance t).alerts = s.alerts := rfl
@[simp] theorem State.advance_faults (s : State) (t : Nat) : (s.advance t).faults = s.faults := rfl
@[simp] theorem State.advance_host (s : State) (t : Nat) : (s.advance t).host = s.host := rfl
@[simp] theorem State.advance_power (s : State) (t : Nat) : (s.advance t).power = s.power := rfl
@[simp] theorem State.advance_trace (s : State) (t : Nat) : (s.advance t).trace = s.trace := rfl
@[simp] theorem State.advance_jtag (s : State) (t : Nat) : (s.advance t).jtag = s.jtag := rfl
@[simp] theorem State.advance_lastOwner (s : State) (t : Nat) : (s.advance t).lastOwner = s.lastOwner := rfl
@[simp] theorem State.advance_captured (s : State) (t : Nat) : (s.advance t).captured = s.captured := rfl
@[simp] theorem State.advance_outputs (s : State) (t : Nat) : (s.advance t).outputs = s.outputs := rfl
@[simp] theorem State.advance_freeCtr (s : State) (t : Nat) : (s.advance t).freeCtr = s.freeCtr := rfl

/-! ### `bump` -/

@[simp] theorem State.bump_pending (s : State) (i j n : Nat) : (s.bump i j n).pending = s.pending := rfl
@[simp] theorem State.bump_cycle (s : State) (i j n : Nat) : (s.bump i j n).cycle = s.cycle := rfl
@[simp] theorem State.bump_tracker (s : State) (i j n : Nat) : (s.bump i j n).tracker = s.tracker := rfl
@[simp] theorem State.bump_almanac (s : State) (i j n : Nat) : (s.bump i j n).almanac = s.almanac := rfl
@[simp] theorem State.bump_onceSet (s : State) (i j n : Nat) : (s.bump i j n).onceSet = s.onceSet := rfl
@[simp] theorem State.bump_mem (s : State) (i j n : Nat) : (s.bump i j n).mem = s.mem := rfl
@[simp] theorem State.bump_queues (s : State) (i j n : Nat) : (s.bump i j n).queues = s.queues := rfl
@[simp] theorem State.bump_asking (s : State) (i j n : Nat) : (s.bump i j n).asking = s.asking := rfl
@[simp] theorem State.bump_contexts (s : State) (i j n : Nat) : (s.bump i j n).contexts = s.contexts := rfl
@[simp] theorem State.bump_counters (s : State) (i j n : Nat) : (s.bump i j n).counters = s.counters := rfl
@[simp] theorem State.bump_added (s : State) (i j n : Nat) : (s.bump i j n).added = s.added := rfl
@[simp] theorem State.bump_lastIssue (s : State) (i j n : Nat) : (s.bump i j n).lastIssue = s.lastIssue := rfl
@[simp] theorem State.bump_lastServed (s : State) (i j n : Nat) : (s.bump i j n).lastServed = s.lastServed := rfl
@[simp] theorem State.bump_streams (s : State) (i j n : Nat) : (s.bump i j n).streams = s.streams := rfl
@[simp] theorem State.bump_chains (s : State) (i j n : Nat) : (s.bump i j n).chains = s.chains := rfl
@[simp] theorem State.bump_tables (s : State) (i j n : Nat) : (s.bump i j n).tables = s.tables := rfl
@[simp] theorem State.bump_matrix (s : State) (i j n : Nat) : (s.bump i j n).matrix = s.matrix := rfl
@[simp] theorem State.bump_scrubs (s : State) (i j n : Nat) : (s.bump i j n).scrubs = s.scrubs := rfl
@[simp] theorem State.bump_links (s : State) (i j n : Nat) : (s.bump i j n).links = s.links := rfl
@[simp] theorem State.bump_remote (s : State) (i j n : Nat) : (s.bump i j n).remote = s.remote := rfl
@[simp] theorem State.bump_nextTag (s : State) (i j n : Nat) : (s.bump i j n).nextTag = s.nextTag := rfl
@[simp] theorem State.bump_retired (s : State) (i j n : Nat) : (s.bump i j n).retired = s.retired := rfl
@[simp] theorem State.bump_kpp (s : State) (i j n : Nat) : (s.bump i j n).kpp = s.kpp := rfl
@[simp] theorem State.bump_alerts (s : State) (i j n : Nat) : (s.bump i j n).alerts = s.alerts := rfl
@[simp] theorem State.bump_faults (s : State) (i j n : Nat) : (s.bump i j n).faults = s.faults := rfl
@[simp] theorem State.bump_host (s : State) (i j n : Nat) : (s.bump i j n).host = s.host := rfl
@[simp] theorem State.bump_power (s : State) (i j n : Nat) : (s.bump i j n).power = s.power := rfl
@[simp] theorem State.bump_trace (s : State) (i j n : Nat) : (s.bump i j n).trace = s.trace := rfl
@[simp] theorem State.bump_jtag (s : State) (i j n : Nat) : (s.bump i j n).jtag = s.jtag := rfl
@[simp] theorem State.bump_lastOwner (s : State) (i j n : Nat) : (s.bump i j n).lastOwner = s.lastOwner := rfl
@[simp] theorem State.bump_captured (s : State) (i j n : Nat) : (s.bump i j n).captured = s.captured := rfl
@[simp] theorem State.bump_outputs (s : State) (i j n : Nat) : (s.bump i j n).outputs = s.outputs := rfl
@[simp] theorem State.bump_freeCtr (s : State) (i j n : Nat) : (s.bump i j n).freeCtr = s.freeCtr := rfl

/-! ### `setDomain` -/

@[simp] theorem State.setDomain_pending (s : State) (d : Nat) (v : DomainState) : (s.setDomain d v).pending = s.pending := rfl
@[simp] theorem State.setDomain_cycle (s : State) (d : Nat) (v : DomainState) : (s.setDomain d v).cycle = s.cycle := rfl
@[simp] theorem State.setDomain_tracker (s : State) (d : Nat) (v : DomainState) : (s.setDomain d v).tracker = s.tracker := rfl
@[simp] theorem State.setDomain_almanac (s : State) (d : Nat) (v : DomainState) : (s.setDomain d v).almanac = s.almanac := rfl
@[simp] theorem State.setDomain_onceSet (s : State) (d : Nat) (v : DomainState) : (s.setDomain d v).onceSet = s.onceSet := rfl
@[simp] theorem State.setDomain_mem (s : State) (d : Nat) (v : DomainState) : (s.setDomain d v).mem = s.mem := rfl
@[simp] theorem State.setDomain_queues (s : State) (d : Nat) (v : DomainState) : (s.setDomain d v).queues = s.queues := rfl
@[simp] theorem State.setDomain_asking (s : State) (d : Nat) (v : DomainState) : (s.setDomain d v).asking = s.asking := rfl
@[simp] theorem State.setDomain_contexts (s : State) (d : Nat) (v : DomainState) : (s.setDomain d v).contexts = s.contexts := rfl
@[simp] theorem State.setDomain_counters (s : State) (d : Nat) (v : DomainState) : (s.setDomain d v).counters = s.counters := rfl
@[simp] theorem State.setDomain_added (s : State) (d : Nat) (v : DomainState) : (s.setDomain d v).added = s.added := rfl
@[simp] theorem State.setDomain_lastIssue (s : State) (d : Nat) (v : DomainState) : (s.setDomain d v).lastIssue = s.lastIssue := rfl
@[simp] theorem State.setDomain_lastServed (s : State) (d : Nat) (v : DomainState) : (s.setDomain d v).lastServed = s.lastServed := rfl
@[simp] theorem State.setDomain_streams (s : State) (d : Nat) (v : DomainState) : (s.setDomain d v).streams = s.streams := rfl
@[simp] theorem State.setDomain_chains (s : State) (d : Nat) (v : DomainState) : (s.setDomain d v).chains = s.chains := rfl
@[simp] theorem State.setDomain_tables (s : State) (d : Nat) (v : DomainState) : (s.setDomain d v).tables = s.tables := rfl
@[simp] theorem State.setDomain_matrix (s : State) (d : Nat) (v : DomainState) : (s.setDomain d v).matrix = s.matrix := rfl
@[simp] theorem State.setDomain_scrubs (s : State) (d : Nat) (v : DomainState) : (s.setDomain d v).scrubs = s.scrubs := rfl
@[simp] theorem State.setDomain_links (s : State) (d : Nat) (v : DomainState) : (s.setDomain d v).links = s.links := rfl
@[simp] theorem State.setDomain_remote (s : State) (d : Nat) (v : DomainState) : (s.setDomain d v).remote = s.remote := rfl
@[simp] theorem State.setDomain_nextTag (s : State) (d : Nat) (v : DomainState) : (s.setDomain d v).nextTag = s.nextTag := rfl
@[simp] theorem State.setDomain_retired (s : State) (d : Nat) (v : DomainState) : (s.setDomain d v).retired = s.retired := rfl
@[simp] theorem State.setDomain_kpp (s : State) (d : Nat) (v : DomainState) : (s.setDomain d v).kpp = s.kpp := rfl
@[simp] theorem State.setDomain_alerts (s : State) (d : Nat) (v : DomainState) : (s.setDomain d v).alerts = s.alerts := rfl
@[simp] theorem State.setDomain_faults (s : State) (d : Nat) (v : DomainState) : (s.setDomain d v).faults = s.faults := rfl
@[simp] theorem State.setDomain_host (s : State) (d : Nat) (v : DomainState) : (s.setDomain d v).host = s.host := rfl
@[simp] theorem State.setDomain_trace (s : State) (d : Nat) (v : DomainState) : (s.setDomain d v).trace = s.trace := rfl
@[simp] theorem State.setDomain_jtag (s : State) (d : Nat) (v : DomainState) : (s.setDomain d v).jtag = s.jtag := rfl
@[simp] theorem State.setDomain_lastOwner (s : State) (d : Nat) (v : DomainState) : (s.setDomain d v).lastOwner = s.lastOwner := rfl
@[simp] theorem State.setDomain_captured (s : State) (d : Nat) (v : DomainState) : (s.setDomain d v).captured = s.captured := rfl
@[simp] theorem State.setDomain_outputs (s : State) (d : Nat) (v : DomainState) : (s.setDomain d v).outputs = s.outputs := rfl
@[simp] theorem State.setDomain_freeCtr (s : State) (d : Nat) (v : DomainState) : (s.setDomain d v).freeCtr = s.freeCtr := rfl

/-! ### Reads after writes -/

@[simp] theorem State.obj_setObj_same (s : State) (i j v : Nat) : (s.setObj i j v).obj i j = v := by
  simp [State.obj, State.setObj]

theorem State.obj_setObj_other (s : State) (i j v i' j' : Nat) (h : objKey i' j' ≠ objKey i j) :
    (s.setObj i j v).obj i' j' = s.obj i' j' := by
  simp [State.obj, State.setObj, h]

@[simp] theorem State.queue_setQueue_same (s : State) (q : Nat) (v : Queue) : (s.setQueue q v).queue q = v := by
  simp [State.queue, State.setQueue]

@[simp] theorem State.queue_setQueue_other (s : State) (q r : Nat) (v : Queue) (h : r ≠ q) :
    (s.setQueue q v).queue r = s.queue r := by
  simp [State.queue, State.setQueue, h]

@[simp] theorem State.context_setContext_same (s : State) (n : Nat) (c : Context) : (s.setContext n c).context n = c := by
  simp [State.context, State.setContext]

@[simp] theorem State.context_setContext_other (s : State) (n m : Nat) (c : Context) (h : m ≠ n) :
    (s.setContext n c).context m = s.context m := by
  simp [State.context, State.setContext, h]

@[simp] theorem State.counter_addCounter_same (s : State) (c : Nat) (v : W32) :
    (s.addCounter c v).counter c = s.counter c + v := by
  simp [State.counter, State.addCounter]

@[simp] theorem State.counter_addCounter_other (s : State) (c d : Nat) (v : W32) (h : d ≠ c) :
    (s.addCounter c v).counter d = s.counter d := by
  simp [State.counter, State.addCounter, h]

@[simp] theorem State.counter_zeroCounter_same (s : State) (c : Nat) : (s.zeroCounter c).counter c = 0 := by
  simp [State.counter, State.zeroCounter]

@[simp] theorem State.counter_zeroCounter_other (s : State) (c d : Nat) (h : d ≠ c) :
    (s.zeroCounter c).counter d = s.counter d := by
  simp [State.counter, State.zeroCounter, h]

/-! ### Bytes of memory -/

@[simp] theorem State.rd8_wr8_same (s : State) (k : Nat) (b : Byte) : (s.wr8 k b).rd8 k = b := by
  simp [State.rd8, State.wr8]

@[simp] theorem State.rd8_wr8_other (s : State) (k j : Nat) (b : Byte) (h : j ≠ k) : (s.wr8 k b).rd8 j = s.rd8 j := by
  simp [State.rd8, State.wr8, h]

/-- A write of bytes changes memory alone. -/
theorem State.wrBytes_mem (s : State) (k : Nat) (l : List Byte) : ∃ m, s.wrBytes k l = { s with mem := m } := by
  induction l generalizing s k with
  | nil => exact ⟨s.mem, rfl⟩
  | cons b r ih => obtain ⟨m, h⟩ := ih (s.wr8 k b) (k + 1); exact ⟨m, h⟩

/-- A byte outside those written reads as before. -/
theorem State.rd8_wrBytes_out (s : State) (k : Nat) (l : List Byte) (j : Nat) (h : j < k ∨ k + l.length ≤ j) :
    (s.wrBytes k l).rd8 j = s.rd8 j := by
  induction l generalizing s k with
  | nil => rfl
  | cons b r ih =>
    simp only [List.length_cons] at h
    rw [State.wrBytes, ih _ _ (by omega), State.rd8_wr8_other _ _ _ _ (by omega)]

/-- Bytes read back where they were written. -/
theorem State.rdBytes_wrBytes (s : State) (k : Nat) (l : List Byte) : (s.wrBytes k l).rdBytes k l.length = l := by
  induction l generalizing s k with
  | nil => rfl
  | cons b r ih =>
    simp only [State.wrBytes, List.length_cons, State.rdBytes, ih]
    rw [State.rd8_wrBytes_out _ _ _ _ (by omega)]
    simp

/-- A read after a span is zeroed. -/
theorem State.rd8_zeroSpan (s : State) (k len j : Nat) :
    (s.zeroSpan k len).rd8 j = if k ≤ j ∧ j < k + len then 0 else s.rd8 j := by
  simp [State.rd8, State.zeroSpan, tget_tdrop, unlistedByte]

/-! ### Memory's canonical form -/

theorem State.wr8_wf (s : State) (k : Nat) (b : Byte) (h : Memory.wf s.mem) : Memory.wf (s.wr8 k b).mem :=
  twf_tset k b unlistedByte h

theorem State.zeroSpan_wf (s : State) (k len : Nat) (h : Memory.wf s.mem) : Memory.wf (s.zeroSpan k len).mem :=
  twf_tdrop k len unlistedByte h

theorem State.wrBytes_wf (s : State) (k : Nat) (l : List Byte) (h : Memory.wf s.mem) : Memory.wf (s.wrBytes k l).mem := by
  induction l generalizing s k with
  | nil => exact h
  | cons b r ih => exact ih _ _ (State.wr8_wf s k b h)

/-! ### Registers of a thread (R84) -/

@[simp] theorem Context.reg_zero (c : Context) : c.reg 0 = 0 := rfl

theorem Context.reg_setReg (c : Context) (d r : Reg) (v : W64) :
    (c.setReg d v).reg r = if r = 0 then 0 else if r = d then v else c.reg r := by
  unfold Context.setReg Context.reg
  by_cases hr : r = 0
  · rw [if_pos hr, if_pos hr]
  · rw [if_neg hr, if_neg hr, if_neg hr]
    by_cases hd : d = 0
    · have : r ≠ d := by rw [hd]; exact hr
      rw [if_pos hd, if_neg this]
    · rw [if_neg hd]
      by_cases h : r = d
      · rw [if_pos h, h]; exact tget_tset_same _ _ _ _
      · rw [if_neg h]
        exact tget_tset_other _ _ _ _ _ _ fun e => h (BitVec.eq_of_toNat_eq e)

/-- A register write touches the registers and what is on its way to them, nothing else. -/
theorem Context.setReg_frame (c : Context) (d : Reg) (v : W64) :
    (c.setReg d v).state = c.state ∧ (c.setReg d v).wait = c.wait ∧ (c.setReg d v).waitOp = c.waitOp ∧
    (c.setReg d v).mregs = c.mregs ∧ (c.setReg d v).pc = c.pc ∧
    (c.setReg d v).outstanding.length = c.outstanding.length := by
  unfold Context.setReg
  by_cases hd : d = 0
  · rw [if_pos hd]; exact ⟨rfl, rfl, rfl, rfl, rfl, rfl⟩
  · rw [if_neg hd]; exact ⟨rfl, rfl, rfl, rfl, rfl, List.length_map ..⟩

end Sys2Proof.Machine
end

