-- ==== Sys2Proof/Laws/Ops.lean ====
section
/-! SUPPORT. What the shared operations can do: trace, MSI-X, faults, the issue of an instruction. -/

namespace Sys2Proof.Machine

/-! ### Trace packets touch trace and the loss counter -/

theorem State.buffered_frame (s : State) (src : Nat) (p : List Byte) :
    ∃ o tr, (s.buffered src p).1 = { s with objs := o, trace := tr } := by
  unfold State.buffered
  dsimp only
  split
  · exact ⟨s.objs, _, rfl⟩
  · exact ⟨_, _, rfl⟩

theorem State.emitQuiet_frame (s : State) (src : Nat) (spec : Bool) (who : BitVec 8) (ev p0 : Nat) (more : List Nat) :
    ∃ o tr, (s.emitQuiet src spec who ev p0 more).1 = { s with objs := o, trace := tr } := by
  unfold State.emitQuiet
  split
  · exact State.buffered_frame ..
  · exact ⟨s.objs, s.trace, rfl⟩

theorem State.faultEvent_frame (s : State) (code : Nat) (who : BitVec 8) (seq : W32) :
    ∃ o tr, (s.faultEvent code who seq).1 = { s with objs := o, trace := tr } :=
  State.emitQuiet_frame ..

/-! ### MSI-X touches the host port and the outputs -/

theorem State.msix_frame (s : State) (v : Nat) : ∃ h u, s.msix v =
    { s with host := { s.host with msixPending := h }, outputs := { s.outputs with msix := u } } := by
  unfold State.msix
  split
  · exact ⟨s.host.msixPending, s.outputs.msix, rfl⟩
  · split
    · exact ⟨_, s.outputs.msix, rfl⟩
    · exact ⟨s.host.msixPending, _, rfl⟩

theorem State.enterFault_frame (s : State) : ∃ p, s.enterFault = { s with power := p } := by
  unfold State.enterFault
  split
  · exact ⟨s.power, rfl⟩
  · exact ⟨s.power, rfl⟩
  · exact ⟨_, rfl⟩

/-! ### A fault touches the log, its counters, MSI-X, the device state and trace -/

theorem State.moveSeqs_frame (s : State) (m : List (W32 × W32)) :
    ∃ f tr, s.moveSeqs m = { s with faults := f, trace := tr } := by
  unfold State.moveSeqs
  split
  · exact ⟨s.faults, s.trace, rfl⟩
  · exact ⟨_, _, rfl⟩

theorem State.logRecord_frame (s : State) (sev : Nat) (r : FaultRecord) :
    ∃ o f tr, s.logRecord sev r = { s with objs := o, faults := f, trace := tr } := by
  unfold State.logRecord
  dsimp only
  split
  · obtain ⟨f, tr, e⟩ := State.moveSeqs_frame s (seqMoves r s.faults.log)
    rw [e]
    exact ⟨s.objs, _, tr, rfl⟩
  · exact ⟨_, _, s.trace, rfl⟩

theorem State.actOnSeverity_frame (s : State) (sev : Nat) :
    ∃ p h u, s.actOnSeverity sev = { s with power := p, host := { s.host with msixPending := h }, outputs := { s.outputs with msix := u } } := by
  unfold State.actOnSeverity
  have h1 : ∃ p, (if sev = 3 then s.enterFault else s) = { s with power := p } := by
    split
    · exact State.enterFault_frame s
    · exact ⟨s.power, rfl⟩
  obtain ⟨p, h1⟩ := h1
  rw [h1]
  dsimp only
  split
  · obtain ⟨h, u, e⟩ := State.msix_frame { s with power := p } 0
    exact ⟨p, h, u, e⟩
  · exact ⟨p, s.host.msixPending, s.outputs.msix, rfl⟩

theorem State.recordFault_frame (s : State) (code : Nat) (who : BitVec 8) (unit addr det0 det1 : Nat) :
    ∃ o f p h u tr, s.recordFault code who unit addr det0 det1 =
      { s with objs := o, faults := f, power := p, host := { s.host with msixPending := h }, outputs := { s.outputs with msix := u }, trace := tr } := by
  unfold State.recordFault
  obtain ⟨o, f, tr, e⟩ := State.logRecord_frame ((s.bump 0x7000 1).bump (0x7010 + code / 256) (code % 256)) (severity code)
    (s.faultRecord code who unit addr det0 det1)
  rw [e]
  obtain ⟨p, h, u, e1⟩ := State.actOnSeverity_frame { s with objs := o, faults := f, trace := tr } (severity code)
  exact ⟨o, f, p, h, u, tr, e1⟩

theorem State.raise_frame (s : State) (code : Nat) (who : BitVec 8) (unit addr det0 det1 : Nat) :
    ∃ o f p h u tr, s.raise code who unit addr det0 det1 =
      { s with objs := o, faults := f, power := p, host := { s.host with msixPending := h }, outputs := { s.outputs with msix := u }, trace := tr } := by
  unfold State.raise
  dsimp only
  obtain ⟨o, f, p, h, u, tr0, e⟩ := State.recordFault_frame s code who unit addr det0 det1
  rw [e]
  obtain ⟨o1, tr, e1⟩ := State.faultEvent_frame
    { s with objs := o, faults := f, power := p, host := { s.host with msixPending := h }, outputs := { s.outputs with msix := u }, trace := tr0 } code who (s.faultSeq code unit)
  rw [e1]
  split
  · obtain ⟨o2, f2, p2, h2, u2, tr2, e2⟩ := State.recordFault_frame
      { s with objs := o1, faults := f, power := p, host := { s.host with msixPending := h }, outputs := { s.outputs with msix := u }, trace := tr } 0x0F01 deviceWide 16 0 0 0
    rw [e2]
    obtain ⟨o3, tr3, e3⟩ := State.faultEvent_frame
      { s with objs := o2, faults := f2, power := p2, host := { s.host with msixPending := h2 }, outputs := { s.outputs with msix := u2 }, trace := tr2 } 0x0F01 deviceWide
      (State.faultSeq { s with objs := o1, faults := f, power := p, host := { s.host with msixPending := h }, outputs := { s.outputs with msix := u }, trace := tr } 0x0F01 16)
    exact ⟨o3, f2, p2, h2, u2, tr3, e3⟩
  · exact ⟨o1, f, p, h, u, tr, rfl⟩

theorem State.emit_frame (s : State) (src : Nat) (spec : Bool) (who : BitVec 8) (ev p0 : Nat) (more : List Nat) :
    ∃ o f p h u tr, s.emit src spec who ev p0 more =
      { s with objs := o, faults := f, power := p, host := { s.host with msixPending := h }, outputs := { s.outputs with msix := u }, trace := tr } := by
  unfold State.emit
  dsimp only
  obtain ⟨o, tr, e⟩ := State.emitQuiet_frame s src spec who ev p0 more
  rw [e]
  split
  · obtain ⟨o1, f, p, h, u, tr1, e1⟩ := State.raise_frame { s with objs := o, trace := tr } 0x0F01 deviceWide src 0 0 0
    exact ⟨o1, f, p, h, u, tr1, e1⟩
  · exact ⟨o, s.faults, s.power, s.host.msixPending, s.outputs.msix, tr, rfl⟩

@[simp] theorem State.raise_pending (s : State) (code : Nat) (who : BitVec 8) (unit addr det0 det1 : Nat) :
    (s.raise code who unit addr det0 det1).pending = s.pending := by
  obtain ⟨_, _, _, _, _, _, e⟩ := State.raise_frame s code who unit addr det0 det1
  rw [e]
@[simp] theorem State.raise_cycle (s : State) (code : Nat) (who : BitVec 8) (unit addr det0 det1 : Nat) :
    (s.raise code who unit addr det0 det1).cycle = s.cycle := by
  obtain ⟨_, _, _, _, _, _, e⟩ := State.raise_frame s code who unit addr det0 det1
  rw [e]
@[simp] theorem State.raise_tracker (s : State) (code : Nat) (who : BitVec 8) (unit addr det0 det1 : Nat) :
    (s.raise code who unit addr det0 det1).tracker = s.tracker := by
  obtain ⟨_, _, _, _, _, _, e⟩ := State.raise_frame s code who unit addr det0 det1
  rw [e]
@[simp] theorem State.raise_almanac (s : State) (code : Nat) (who : BitVec 8) (unit addr det0 det1 : Nat) :
    (s.raise code who unit addr det0 det1).almanac = s.almanac := by
  obtain ⟨_, _, _, _, _, _, e⟩ := State.raise_frame s code who unit addr det0 det1
  rw [e]
@[simp] theorem State.raise_onceSet (s : State) (code : Nat) (who : BitVec 8) (unit addr det0 det1 : Nat) :
    (s.raise code who unit addr det0 det1).onceSet = s.onceSet := by
  obtain ⟨_, _, _, _, _, _, e⟩ := State.raise_frame s code who unit addr det0 det1
  rw [e]
@[simp] theorem State.raise_mem (s : State) (code : Nat) (who : BitVec 8) (unit addr det0 det1 : Nat) :
    (s.raise code who unit addr det0 det1).mem = s.mem := by
  obtain ⟨_, _, _, _, _, _, e⟩ := State.raise_frame s code who unit addr det0 det1
  rw [e]
@[simp] theorem State.raise_queues (s : State) (code : Nat) (who : BitVec 8) (unit addr det0 det1 : Nat) :
    (s.raise code who unit addr det0 det1).queues = s.queues := by
  obtain ⟨_, _, _, _, _, _, e⟩ := State.raise_frame s code who unit addr det0 det1
  rw [e]
@[simp] theorem State.raise_asking (s : State) (code : Nat) (who : BitVec 8) (unit addr det0 det1 : Nat) :
    (s.raise code who unit addr det0 det1).asking = s.asking := by
  obtain ⟨_, _, _, _, _, _, e⟩ := State.raise_frame s code who unit addr det0 det1
  rw [e]
@[simp] theorem State.raise_contexts (s : State) (code : Nat) (who : BitVec 8) (unit addr det0 det1 : Nat) :
    (s.raise code who unit addr det0 det1).contexts = s.contexts := by
  obtain ⟨_, _, _, _, _, _, e⟩ := State.raise_frame s code who unit addr det0 det1
  rw [e]
@[simp] theorem State.raise_counters (s : State) (code : Nat) (who : BitVec 8) (unit addr det0 det1 : Nat) :
    (s.raise code who unit addr det0 det1).counters = s.counters := by
  obtain ⟨_, _, _, _, _, _, e⟩ := State.raise_frame s code who unit addr det0 det1
  rw [e]
@[simp] theorem State.raise_added (s : State) (code : Nat) (who : BitVec 8) (unit addr det0 det1 : Nat) :
    (s.raise code who unit addr det0 det1).added = s.added := by
  obtain ⟨_, _, _, _, _, _, e⟩ := State.raise_frame s code who unit addr det0 det1
  rw [e]
@[simp] theorem State.raise_lastIssue (s : State) (code : Nat) (who : BitVec 8) (unit addr det0 det1 : Nat) :
    (s.raise code who unit addr det0 det1).lastIssue = s.lastIssue := by
  obtain ⟨_, _, _, _, _, _, e⟩ := State.raise_frame s code who unit addr det0 det1
  rw [e]
@[simp] theorem State.raise_lastServed (s : State) (code : Nat) (who : BitVec 8) (unit addr det0 det1 : Nat) :
    (s.raise code who unit addr det0 det1).lastServed = s.lastServed := by
  obtain ⟨_, _, _, _, _, _, e⟩ := State.raise_frame s code who unit addr det0 det1
  rw [e]
@[simp] theorem State.raise_streams (s : State) (code : Nat) (who : BitVec 8) (unit addr det0 det1 : Nat) :
    (s.raise code who unit addr det0 det1).streams = s.streams := by
  obtain ⟨_, _, _, _, _, _, e⟩ := State.raise_frame s code who unit addr det0 det1
  rw [e]
@[simp] theorem State.raise_chains (s : State) (code : Nat) (who : BitVec 8) (unit addr det0 det1 : Nat) :
    (s.raise code who unit addr det0 det1).chains = s.chains := by
  obtain ⟨_, _, _, _, _, _, e⟩ := State.raise_frame s code who unit addr det0 det1
  rw [e]
@[simp] theorem State.raise_tables (s : State) (code : Nat) (who : BitVec 8) (unit addr det0 det1 : Nat) :
    (s.raise code who unit addr det0 det1).tables = s.tables := by
  obtain ⟨_, _, _, _, _, _, e⟩ := State.raise_frame s code who unit addr det0 det1
  rw [e]
@[simp] theorem State.raise_matrix (s : State) (code : Nat) (who : BitVec 8) (unit addr det0 det1 : Nat) :
    (s.raise code who unit addr det0 det1).matrix = s.matrix := by
  obtain ⟨_, _, _, _, _, _, e⟩ := State.raise_frame s code who unit addr det0 det1
  rw [e]
@[simp] theorem State.raise_scrubs (s : State) (code : Nat) (who : BitVec 8) (unit addr det0 det1 : Nat) :
    (s.raise code who unit addr det0 det1).scrubs = s.scrubs := by
  obtain ⟨_, _, _, _, _, _, e⟩ := State.raise_frame s code who unit addr det0 det1
  rw [e]
@[simp] theorem State.raise_links (s : State) (code : Nat) (who : BitVec 8) (unit addr det0 det1 : Nat) :
    (s.raise code who unit addr det0 det1).links = s.links := by
  obtain ⟨_, _, _, _, _, _, e⟩ := State.raise_frame s code who unit addr det0 det1
  rw [e]
@[simp] theorem State.raise_remote (s : State) (code : Nat) (who : BitVec 8) (unit addr det0 det1 : Nat) :
    (s.raise code who unit addr det0 det1).remote = s.remote := by
  obtain ⟨_, _, _, _, _, _, e⟩ := State.raise_frame s code who unit addr det0 det1
  rw [e]
@[simp] theorem State.raise_nextTag (s : State) (code : Nat) (who : BitVec 8) (unit addr det0 det1 : Nat) :
    (s.raise code who unit addr det0 det1).nextTag = s.nextTag := by
  obtain ⟨_, _, _, _, _, _, e⟩ := State.raise_frame s code who unit addr det0 det1
  rw [e]
@[simp] theorem State.raise_retired (s : State) (code : Nat) (who : BitVec 8) (unit addr det0 det1 : Nat) :
    (s.raise code who unit addr det0 det1).retired = s.retired := by
  obtain ⟨_, _, _, _, _, _, e⟩ := State.raise_frame s code who unit addr det0 det1
  rw [e]
@[simp] theorem State.raise_kpp (s : State) (code : Nat) (who : BitVec 8) (unit addr det0 det1 : Nat) :
    (s.raise code who unit addr det0 det1).kpp = s.kpp := by
  obtain ⟨_, _, _, _, _, _, e⟩ := State.raise_frame s code who unit addr det0 det1
  rw [e]
@[simp] theorem State.raise_alerts (s : State) (code : Nat) (who : BitVec 8) (unit addr det0 det1 : Nat) :
    (s.raise code who unit addr det0 det1).alerts = s.alerts := by
  obtain ⟨_, _, _, _, _, _, e⟩ := State.raise_frame s code who unit addr det0 det1
  rw [e]
@[simp] theorem State.raise_jtag (s : State) (code : Nat) (who : BitVec 8) (unit addr det0 det1 : Nat) :
    (s.raise code who unit addr det0 det1).jtag = s.jtag := by
  obtain ⟨_, _, _, _, _, _, e⟩ := State.raise_frame s code who unit addr det0 det1
  rw [e]
@[simp] theorem State.raise_lastOwner (s : State) (code : Nat) (who : BitVec 8) (unit addr det0 det1 : Nat) :
    (s.raise code who unit addr det0 det1).lastOwner = s.lastOwner := by
  obtain ⟨_, _, _, _, _, _, e⟩ := State.raise_frame s code who unit addr det0 det1
  rw [e]
@[simp] theorem State.raise_captured (s : State) (code : Nat) (who : BitVec 8) (unit addr det0 det1 : Nat) :
    (s.raise code who unit addr det0 det1).captured = s.captured := by
  obtain ⟨_, _, _, _, _, _, e⟩ := State.raise_frame s code who unit addr det0 det1
  rw [e]
@[simp] theorem State.raise_freeCtr (s : State) (code : Nat) (who : BitVec 8) (unit addr det0 det1 : Nat) :
    (s.raise code who unit addr det0 det1).freeCtr = s.freeCtr := by
  obtain ⟨_, _, _, _, _, _, e⟩ := State.raise_frame s code who unit addr det0 det1
  rw [e]

@[simp] theorem State.emit_pending (s : State) (src : Nat) (spec : Bool) (who : BitVec 8) (ev p0 : Nat) (more : List Nat) :
    (s.emit src spec who ev p0 more).pending = s.pending := by
  obtain ⟨_, _, _, _, _, _, e⟩ := State.emit_frame s src spec who ev p0 more
  rw [e]
@[simp] theorem State.emit_cycle (s : State) (src : Nat) (spec : Bool) (who : BitVec 8) (ev p0 : Nat) (more : List Nat) :
    (s.emit src spec who ev p0 more).cycle = s.cycle := by
  obtain ⟨_, _, _, _, _, _, e⟩ := State.emit_frame s src spec who ev p0 more
  rw [e]
@[simp] theorem State.emit_tracker (s : State) (src : Nat) (spec : Bool) (who : BitVec 8) (ev p0 : Nat) (more : List Nat) :
    (s.emit src spec who ev p0 more).tracker = s.tracker := by
  obtain ⟨_, _, _, _, _, _, e⟩ := State.emit_frame s src spec who ev p0 more
  rw [e]
@[simp] theorem State.emit_almanac (s : State) (src : Nat) (spec : Bool) (who : BitVec 8) (ev p0 : Nat) (more : List Nat) :
    (s.emit src spec who ev p0 more).almanac = s.almanac := by
  obtain ⟨_, _, _, _, _, _, e⟩ := State.emit_frame s src spec who ev p0 more
  rw [e]
@[simp] theorem State.emit_onceSet (s : State) (src : Nat) (spec : Bool) (who : BitVec 8) (ev p0 : Nat) (more : List Nat) :
    (s.emit src spec who ev p0 more).onceSet = s.onceSet := by
  obtain ⟨_, _, _, _, _, _, e⟩ := State.emit_frame s src spec who ev p0 more
  rw [e]
@[simp] theorem State.emit_mem (s : State) (src : Nat) (spec : Bool) (who : BitVec 8) (ev p0 : Nat) (more : List Nat) :
    (s.emit src spec who ev p0 more).mem = s.mem := by
  obtain ⟨_, _, _, _, _, _, e⟩ := State.emit_frame s src spec who ev p0 more
  rw [e]
@[simp] theorem State.emit_queues (s : State) (src : Nat) (spec : Bool) (who : BitVec 8) (ev p0 : Nat) (more : List Nat) :
    (s.emit src spec who ev p0 more).queues = s.queues := by
  obtain ⟨_, _, _, _, _, _, e⟩ := State.emit_frame s src spec who ev p0 more
  rw [e]
@[simp] theorem State.emit_asking (s : State) (src : Nat) (spec : Bool) (who : BitVec 8) (ev p0 : Nat) (more : List Nat) :
    (s.emit src spec who ev p0 more).asking = s.asking := by
  obtain ⟨_, _, _, _, _, _, e⟩ := State.emit_frame s src spec who ev p0 more
  rw [e]
@[simp] theorem State.emit_contexts (s : State) (src : Nat) (spec : Bool) (who : BitVec 8) (ev p0 : Nat) (more : List Nat) :
    (s.emit src spec who ev p0 more).contexts = s.contexts := by
  obtain ⟨_, _, _, _, _, _, e⟩ := State.emit_frame s src spec who ev p0 more
  rw [e]
@[simp] theorem State.emit_counters (s : State) (src : Nat) (spec : Bool) (who : BitVec 8) (ev p0 : Nat) (more : List Nat) :
    (s.emit src spec who ev p0 more).counters = s.counters := by
  obtain ⟨_, _, _, _, _, _, e⟩ := State.emit_frame s src spec who ev p0 more
  rw [e]
@[simp] theorem State.emit_added (s : State) (src : Nat) (spec : Bool) (who : BitVec 8) (ev p0 : Nat) (more : List Nat) :
    (s.emit src spec who ev p0 more).added = s.added := by
  obtain ⟨_, _, _, _, _, _, e⟩ := State.emit_frame s src spec who ev p0 more
  rw [e]
@[simp] theorem State.emit_lastIssue (s : State) (src : Nat) (spec : Bool) (who : BitVec 8) (ev p0 : Nat) (more : List Nat) :
    (s.emit src spec who ev p0 more).lastIssue = s.lastIssue := by
  obtain ⟨_, _, _, _, _, _, e⟩ := State.emit_frame s src spec who ev p0 more
  rw [e]
@[simp] theorem State.emit_lastServed (s : State) (src : Nat) (spec : Bool) (who : BitVec 8) (ev p0 : Nat) (more : List Nat) :
    (s.emit src spec who ev p0 more).lastServed = s.lastServed := by
  obtain ⟨_, _, _, _, _, _, e⟩ := State.emit_frame s src spec who ev p0 more
  rw [e]
@[simp] theorem State.emit_streams (s : State) (src : Nat) (spec : Bool) (who : BitVec 8) (ev p0 : Nat) (more : List Nat) :
    (s.emit src spec who ev p0 more).streams = s.streams := by
  obtain ⟨_, _, _, _, _, _, e⟩ := State.emit_frame s src spec who ev p0 more
  rw [e]
@[simp] theorem State.emit_chains (s : State) (src : Nat) (spec : Bool) (who : BitVec 8) (ev p0 : Nat) (more : List Nat) :
    (s.emit src spec who ev p0 more).chains = s.chains := by
  obtain ⟨_, _, _, _, _, _, e⟩ := State.emit_frame s src spec who ev p0 more
  rw [e]
@[simp] theorem State.emit_tables (s : State) (src : Nat) (spec : Bool) (who : BitVec 8) (ev p0 : Nat) (more : List Nat) :
    (s.emit src spec who ev p0 more).tables = s.tables := by
  obtain ⟨_, _, _, _, _, _, e⟩ := State.emit_frame s src spec who ev p0 more
  rw [e]
@[simp] theorem State.emit_matrix (s : State) (src : Nat) (spec : Bool) (who : BitVec 8) (ev p0 : Nat) (more : List Nat) :
    (s.emit src spec who ev p0 more).matrix = s.matrix := by
  obtain ⟨_, _, _, _, _, _, e⟩ := State.emit_frame s src spec who ev p0 more
  rw [e]
@[simp] theorem State.emit_scrubs (s : State) (src : Nat) (spec : Bool) (who : BitVec 8) (ev p0 : Nat) (more : List Nat) :
    (s.emit src spec who ev p0 more).scrubs = s.scrubs := by
  obtain ⟨_, _, _, _, _, _, e⟩ := State.emit_frame s src spec who ev p0 more
  rw [e]
@[simp] theorem State.emit_links (s : State) (src : Nat) (spec : Bool) (who : BitVec 8) (ev p0 : Nat) (more : List Nat) :
    (s.emit src spec who ev p0 more).links = s.links := by
  obtain ⟨_, _, _, _, _, _, e⟩ := State.emit_frame s src spec who ev p0 more
  rw [e]
@[simp] theorem State.emit_remote (s : State) (src : Nat) (spec : Bool) (who : BitVec 8) (ev p0 : Nat) (more : List Nat) :
    (s.emit src spec who ev p0 more).remote = s.remote := by
  obtain ⟨_, _, _, _, _, _, e⟩ := State.emit_frame s src spec who ev p0 more
  rw [e]
@[simp] theorem State.emit_nextTag (s : State) (src : Nat) (spec : Bool) (who : BitVec 8) (ev p0 : Nat) (more : List Nat) :
    (s.emit src spec who ev p0 more).nextTag = s.nextTag := by
  obtain ⟨_, _, _, _, _, _, e⟩ := State.emit_frame s src spec who ev p0 more
  rw [e]
@[simp] theorem State.emit_retired (s : State) (src : Nat) (spec : Bool) (who : BitVec 8) (ev p0 : Nat) (more : List Nat) :
    (s.emit src spec who ev p0 more).retired = s.retired := by
  obtain ⟨_, _, _, _, _, _, e⟩ := State.emit_frame s src spec who ev p0 more
  rw [e]
@[simp] theorem State.emit_kpp (s : State) (src : Nat) (spec : Bool) (who : BitVec 8) (ev p0 : Nat) (more : List Nat) :
    (s.emit src spec who ev p0 more).kpp = s.kpp := by
  obtain ⟨_, _, _, _, _, _, e⟩ := State.emit_frame s src spec who ev p0 more
  rw [e]
@[simp] theorem State.emit_alerts (s : State) (src : Nat) (spec : Bool) (who : BitVec 8) (ev p0 : Nat) (more : List Nat) :
    (s.emit src spec who ev p0 more).alerts = s.alerts := by
  obtain ⟨_, _, _, _, _, _, e⟩ := State.emit_frame s src spec who ev p0 more
  rw [e]
@[simp] theorem State.emit_jtag (s : State) (src : Nat) (spec : Bool) (who : BitVec 8) (ev p0 : Nat) (more : List Nat) :
    (s.emit src spec who ev p0 more).jtag = s.jtag := by
  obtain ⟨_, _, _, _, _, _, e⟩ := State.emit_frame s src spec who ev p0 more
  rw [e]
@[simp] theorem State.emit_lastOwner (s : State) (src : Nat) (spec : Bool) (who : BitVec 8) (ev p0 : Nat) (more : List Nat) :
    (s.emit src spec who ev p0 more).lastOwner = s.lastOwner := by
  obtain ⟨_, _, _, _, _, _, e⟩ := State.emit_frame s src spec who ev p0 more
  rw [e]
@[simp] theorem State.emit_captured (s : State) (src : Nat) (spec : Bool) (who : BitVec 8) (ev p0 : Nat) (more : List Nat) :
    (s.emit src spec who ev p0 more).captured = s.captured := by
  obtain ⟨_, _, _, _, _, _, e⟩ := State.emit_frame s src spec who ev p0 more
  rw [e]
@[simp] theorem State.emit_freeCtr (s : State) (src : Nat) (spec : Bool) (who : BitVec 8) (ev p0 : Nat) (more : List Nat) :
    (s.emit src spec who ev p0 more).freeCtr = s.freeCtr := by
  obtain ⟨_, _, _, _, _, _, e⟩ := State.emit_frame s src spec who ev p0 more
  rw [e]

@[simp] theorem State.raise_context (s : State) (code : Nat) (who : BitVec 8) (unit addr det0 det1 : Nat) (n : Nat) :
    (s.raise code who unit addr det0 det1).context n = s.context n := by
  simp [State.context]

@[simp] theorem State.raise_queue (s : State) (code : Nat) (who : BitVec 8) (unit addr det0 det1 : Nat) (q : Nat) :
    (s.raise code who unit addr det0 det1).queue q = s.queue q := by
  simp [State.queue]

@[simp] theorem State.raise_counter (s : State) (code : Nat) (who : BitVec 8) (unit addr det0 det1 : Nat) (c : Nat) :
    (s.raise code who unit addr det0 det1).counter c = s.counter c := by
  simp [State.counter]

@[simp] theorem State.raise_rd8 (s : State) (code : Nat) (who : BitVec 8) (unit addr det0 det1 : Nat) (k : Nat) :
    (s.raise code who unit addr det0 det1).rd8 k = s.rd8 k := by
  simp [State.rd8]

@[simp] theorem State.emit_context (s : State) (src : Nat) (spec : Bool) (who : BitVec 8) (ev p0 : Nat) (more : List Nat) (n : Nat) :
    (s.emit src spec who ev p0 more).context n = s.context n := by
  simp [State.context]

@[simp] theorem State.emit_queue (s : State) (src : Nat) (spec : Bool) (who : BitVec 8) (ev p0 : Nat) (more : List Nat) (q : Nat) :
    (s.emit src spec who ev p0 more).queue q = s.queue q := by
  simp [State.queue]

@[simp] theorem State.emit_counter (s : State) (src : Nat) (spec : Bool) (who : BitVec 8) (ev p0 : Nat) (more : List Nat) (c : Nat) :
    (s.emit src spec who ev p0 more).counter c = s.counter c := by
  simp [State.counter]

@[simp] theorem State.emit_rd8 (s : State) (src : Nat) (spec : Bool) (who : BitVec 8) (ev p0 : Nat) (more : List Nat) (k : Nat) :
    (s.emit src spec who ev p0 more).rd8 k = s.rd8 k := by
  simp [State.rd8]

/-! ### The issue of an instruction -/

/-- An instruction whose thread may issue runs its work on the state with the order of issue moved on. -/
theorem State.issueOn_runs (s : State) (th : Thread) (op : Nat) (srcs : List Reg) (f : State → Nat → Context → State)
    (hi : s.issues th = true) (ha : (s.context (Thread.num th)).awaited srcs = []) :
    s.issueOn th op srcs f =
      f { s with lastIssue := tset s.lastIssue th.bed th.ctx 63 } (Thread.num th) (s.context (Thread.num th)) := by
  have hc : ({ s with lastIssue := tset s.lastIssue th.bed th.ctx 63 } : State).context (Thread.num th) =
      s.context (Thread.num th) := rfl
  simp [State.issueOn, hi, hc, ha]

/-- One that reads a result still on its way waits. -/
theorem State.issueOn_waits (s : State) (th : Thread) (op : Nat) (srcs : List Reg) (f : State → Nat → Context → State)
    (hi : s.issues th = true) (ha : (s.context (Thread.num th)).awaited srcs ≠ []) :
    s.issueOn th op srcs f =
      ({ s with lastIssue := tset s.lastIssue th.bed th.ctx 63 } : State).waitFor (Thread.num th) op
        (s.context (Thread.num th)) (.regs ((s.context (Thread.num th)).awaited srcs)) := by
  have hc : ({ s with lastIssue := tset s.lastIssue th.bed th.ctx 63 } : State).context (Thread.num th) =
      s.context (Thread.num th) := rfl
  simp [State.issueOn, hi, hc, ha]

/-- One whose thread's turn it is not does nothing. -/
theorem State.issueOn_not (s : State) (th : Thread) (op : Nat) (srcs : List Reg) (f : State → Nat → Context → State)
    (hi : s.issues th = false) : s.issueOn th op srcs f = s := by
  simp [State.issueOn, hi]

end Sys2Proof.Machine
end

