-- ==== Sys2Proof/Laws/Faults.lean ====
section
/-! SUPPORT. What raising a fault leaves in the counters and in the log. -/

namespace Sys2Proof.Machine

theorem State.bump_obj_other (s : State) (i j n i' j' : Nat) (h : objKey i' j' ≠ objKey i j) :
    (s.bump i j n).obj i' j' = s.obj i' j' :=
  State.obj_setObj_other _ _ _ _ _ _ h

@[simp] theorem State.bump_obj_same (s : State) (i j n : Nat) : (s.bump i j n).obj i j = (s.obj i j + n) % 2 ^ 32 := by
  simp [State.bump]

/-- A state that has the same objects reads the same object. -/
theorem State.obj_congr {s t : State} (h : t.objs = s.objs) (i j : Nat) : t.obj i j = s.obj i j := by
  simp [State.obj, h]

theorem State.enterFault_objs (s : State) : s.enterFault.objs = s.objs := by
  obtain ⟨p, h⟩ := State.enterFault_frame s; rw [h]

theorem State.actOnSeverity_objs (s : State) (sev : Nat) : (s.actOnSeverity sev).objs = s.objs := by
  obtain ⟨p, h, u, e⟩ := State.actOnSeverity_frame s sev; rw [e]

theorem State.actOnSeverity_faults (s : State) (sev : Nat) : (s.actOnSeverity sev).faults = s.faults := by
  obtain ⟨p, h, u, e⟩ := State.actOnSeverity_frame s sev; rw [e]

theorem State.logRecord_obj (s : State) (sev : Nat) (r : FaultRecord) (i j : Nat) (h : objKey i j ≠ objKey 0x7000 5) :
    (s.logRecord sev r).obj i j = s.obj i j := by
  unfold State.logRecord
  dsimp only
  split
  · obtain ⟨f, tr, e⟩ := State.moveSeqs_frame s (seqMoves r s.faults.log)
    rw [e]; rfl
  · exact State.bump_obj_other _ _ _ _ _ _ h

/-- A record that the log admits is in it afterwards, in its place among those of its cycle. -/
theorem State.recordFault_log (s : State) (code : Nat) (who : BitVec 8) (unit addr det0 det1 : Nat) :
    (s.recordFault code who unit addr det0 det1).faults.log =
      if logAdmits (severity code) s.faults.log.length then
        placeFault (s.faultRecord code who unit addr det0 det1) s.faults.log else s.faults.log := by
  simp only [State.recordFault, State.actOnSeverity_faults, State.logRecord]
  split <;> rename_i h
  · rw [State.bump_faults, State.bump_faults] at h; rw [if_pos h]; rfl
  · rw [State.bump_faults, State.bump_faults] at h; rw [if_neg h]; rfl

/-! ### The place of a record -/

/-- A new record stands behind none that belongs behind it, with the number of the first that does. -/
theorem placeFault_split (r : FaultRecord) (l : List FaultRecord) :
    ∃ pre post, placeFault r l =
        pre ++ { r with seq := ((l.find? fun x => x.behind r).map fun x => x.seq).getD r.seq } :: post ∧
      ∀ x ∈ pre, x.behind r = false := by
  induction l with
  | nil => exact ⟨[], [], rfl, by simp⟩
  | cons x l ih =>
    by_cases h : x.behind r = true
    · exact ⟨[], _, by simp [placeFault, h]; rfl, by simp⟩
    · have h : x.behind r = false := by simpa using h
      obtain ⟨pre, post, e, hp⟩ := ih
      refine ⟨x :: pre, post, by simp [placeFault, h, e], fun y hy => ?_⟩
      rcases List.mem_cons.1 hy with rfl | hy
      · exact h
      · exact hp y hy

/-- Records that a new one does not precede stay as they are. -/
theorem placeFault_keeps (r : FaultRecord) (pre post : List FaultRecord) (h : ∀ x ∈ pre, x.behind r = false) :
    ∃ post', placeFault r (pre ++ post) = pre ++ post' := by
  induction pre with
  | nil => exact ⟨_, rfl⟩
  | cons x l ih =>
    obtain ⟨post', e⟩ := ih fun y hy => h y (List.mem_cons_of_mem _ hy)
    exact ⟨post', by simp [placeFault, h x (List.mem_cons_self ..), e]⟩

/-- Record r is in the log, and no trace loss of the present cycle moves it. -/
def State.holdsRecord (s : State) (r : FaultRecord) : Prop :=
  ∃ pre post, s.faults.log = pre ++ r :: post ∧
    ∀ x ∈ pre ++ [r], x.cycle = BitVec.ofNat 64 s.cycle → x.code < 0x0F01#16

theorem State.holdsRecord_mem {s : State} {r : FaultRecord} (h : s.holdsRecord r) : r ∈ s.faults.log := by
  obtain ⟨pre, post, e, _⟩ := h
  rw [e]; simp

/-- A trace loss leaves such a record where it is. -/
theorem State.recordFault_holds (s : State) (who : BitVec 8) (unit addr det0 det1 : Nat) {r : FaultRecord}
    (h : s.holdsRecord r) : (s.recordFault 0x0F01 who unit addr det0 det1).holdsRecord r := by
  obtain ⟨pre, post, e, hp⟩ := h
  have hc : (s.recordFault 0x0F01 who unit addr det0 det1).cycle = s.cycle := by
    obtain ⟨_, _, _, _, _, _, e⟩ := State.recordFault_frame s 0x0F01 who unit addr det0 det1; rw [e]
  unfold State.holdsRecord
  rw [State.recordFault_log, hc]
  split
  · obtain ⟨post', e'⟩ := placeFault_keeps (s.faultRecord 0x0F01 who unit addr det0 det1) (pre ++ [r]) post (by
      intro x hx
      have := hp x hx
      by_cases hcy : x.cycle = BitVec.ofNat 64 s.cycle
      · have := this hcy
        have h1 : ¬ (0x0F01#16 < x.code) := by bv_omega
        have h2 : ¬ (0x0F01#16 = x.code) := by bv_omega
        simp [FaultRecord.behind, State.faultRecord, h1, h2]
      · simp [FaultRecord.behind, State.faultRecord, hcy])
    refine ⟨pre, post', ?_, hp⟩
    rw [e]
    simpa using e'
  · exact ⟨pre, post, e, hp⟩

/-- A new record that the log admits is held with the number R331 gives it. -/
theorem State.recordFault_new (s : State) (code : Nat) (who : BitVec 8) (unit addr det0 det1 : Nat)
    (hc : code < 0x0F01) (ha : logAdmits (severity code) s.faults.log.length = true) :
    (s.recordFault code who unit addr det0 det1).holdsRecord
      { s.faultRecord code who unit addr det0 det1 with seq := s.faultSeq code unit } := by
  have hcy : (s.recordFault code who unit addr det0 det1).cycle = s.cycle := by
    obtain ⟨_, _, _, _, _, _, e⟩ := State.recordFault_frame s code who unit addr det0 det1; rw [e]
  unfold State.holdsRecord
  rw [State.recordFault_log, if_pos ha, hcy]
  obtain ⟨pre, post, e, hp⟩ := placeFault_split (s.faultRecord code who unit addr det0 det1) s.faults.log
  have hq : s.faultSeq code unit = ((s.faults.log.find? fun x =>
      x.behind (s.faultRecord code who unit addr det0 det1)).map fun x => x.seq).getD s.faults.nextSeq := by
    unfold State.faultSeq
    dsimp only
    rw [if_pos ha]
    rfl
  refine ⟨pre, post, by rw [hq]; exact e, fun x hx hx' => ?_⟩
  have hcode : (BitVec.ofNat 16 code) < 0x0F01#16 := by
    rw [BitVec.lt_def, BitVec.toNat_ofNat, Nat.mod_eq_of_lt (by omega)]; simpa using hc
  rcases List.mem_append.1 hx with hx | hx
  · have h := hp x hx
    simp only [FaultRecord.behind, State.faultRecord, hx', decide_true, Bool.true_and, Bool.or_eq_false_iff] at h
    have h1 : ¬ BitVec.ofNat 16 code < x.code := of_decide_eq_false h.1
    bv_omega
  · rw [List.mem_singleton.1 hx]; exact hcode

theorem objKey_fault (code : Nat) : objKey (0x7010 + code / 256) (code % 256) = 0x701000 + code := by
  unfold objKey; omega

/-- What a fault leaves in a fault counter: its own is counted, another is as before. -/
theorem State.recordFault_count (s : State) (code : Nat) (who : BitVec 8) (unit addr det0 det1 c : Nat) :
    (s.recordFault code who unit addr det0 det1).obj (0x7010 + c / 256) (c % 256) =
      if c = code then (s.obj (0x7010 + c / 256) (c % 256) + 1) % 2 ^ 32
      else s.obj (0x7010 + c / 256) (c % 256) := by
  have h5 : objKey (0x7010 + c / 256) (c % 256) ≠ objKey 0x7000 5 := by rw [objKey_fault]; unfold objKey; omega
  have h1 : objKey (0x7010 + c / 256) (c % 256) ≠ objKey 0x7000 1 := by rw [objKey_fault]; unfold objKey; omega
  unfold State.recordFault
  rw [State.obj_congr (State.actOnSeverity_objs _ _), State.logRecord_obj _ _ _ _ _ h5]
  by_cases h : c = code
  · subst h
    rw [if_pos rfl, State.bump_obj_same, State.bump_obj_other _ _ _ _ _ _ h1]
  · have h2 : objKey (0x7010 + c / 256) (c % 256) ≠ objKey (0x7010 + code / 256) (code % 256) := by
      rw [objKey_fault, objKey_fault]; omega
    rw [if_neg h, State.bump_obj_other _ _ _ _ _ _ h2, State.bump_obj_other _ _ _ _ _ _ h1]

theorem State.emitQuiet_faults (s : State) (src : Nat) (spec : Bool) (who : BitVec 8) (ev p0 : Nat) (more : List Nat) :
    (s.emitQuiet src spec who ev p0 more).1.faults = s.faults := by
  obtain ⟨o, tr, e⟩ := State.emitQuiet_frame s src spec who ev p0 more; rw [e]

/-- A trace packet leaves every object but the lost-packet counter. -/
theorem State.emitQuiet_obj (s : State) (src : Nat) (spec : Bool) (who : BitVec 8) (ev p0 : Nat) (more : List Nat)
    (i j : Nat) (h : objKey i j ≠ objKey 0x7800 7) :
    (s.emitQuiet src spec who ev p0 more).1.obj i j = s.obj i j := by
  unfold State.emitQuiet
  split
  · unfold State.buffered
    dsimp only
    split
    · rfl
    · exact State.bump_obj_other _ _ _ _ _ _ h
  · rfl

/-! ### What trace and the fault log leave alone: every object below 0x7000, and for an event the device -/

theorem State.recordFault_obj_low (s : State) (code : Nat) (who : BitVec 8) (unit addr det0 det1 i j : Nat)
    (h : objKey i j < 0x700000) : (s.recordFault code who unit addr det0 det1).obj i j = s.obj i j := by
  have h5 : objKey i j ≠ objKey 0x7000 5 := by unfold objKey at *; omega
  have h1 : objKey i j ≠ objKey 0x7000 1 := by unfold objKey at *; omega
  have h2 : objKey i j ≠ objKey (0x7010 + code / 256) (code % 256) := by rw [objKey_fault]; omega
  unfold State.recordFault
  rw [State.obj_congr (State.actOnSeverity_objs _ _), State.logRecord_obj _ _ _ _ _ h5,
    State.bump_obj_other _ _ _ _ _ _ h2, State.bump_obj_other _ _ _ _ _ _ h1]

theorem State.raise_obj_low (s : State) (code : Nat) (who : BitVec 8) (unit addr det0 det1 i j : Nat)
    (h : objKey i j < 0x700000) : (s.raise code who unit addr det0 det1).obj i j = s.obj i j := by
  have h7 : objKey i j ≠ objKey 0x7800 7 := by unfold objKey at *; omega
  unfold State.raise
  dsimp only
  split
  · rw [State.faultEvent, State.emitQuiet_obj _ _ _ _ _ _ _ _ _ h7, State.recordFault_obj_low _ _ _ _ _ _ _ _ _ h,
      State.faultEvent, State.emitQuiet_obj _ _ _ _ _ _ _ _ _ h7, State.recordFault_obj_low _ _ _ _ _ _ _ _ _ h]
  · rw [State.faultEvent, State.emitQuiet_obj _ _ _ _ _ _ _ _ _ h7, State.recordFault_obj_low _ _ _ _ _ _ _ _ _ h]

theorem State.emit_obj_low (s : State) (src : Nat) (spec : Bool) (who : BitVec 8) (ev p0 : Nat) (more : List Nat)
    (i j : Nat) (h : objKey i j < 0x700000) : (s.emit src spec who ev p0 more).obj i j = s.obj i j := by
  have h7 : objKey i j ≠ objKey 0x7800 7 := by unfold objKey at *; omega
  unfold State.emit
  dsimp only
  split
  · rw [State.raise_obj_low _ _ _ _ _ _ _ _ _ h, State.emitQuiet_obj _ _ _ _ _ _ _ _ _ h7]
  · rw [State.emitQuiet_obj _ _ _ _ _ _ _ _ _ h7]

/-- A fault that is not FATAL leaves the device state. -/
theorem State.recordFault_power (s : State) (code : Nat) (who : BitVec 8) (unit addr det0 det1 : Nat)
    (h : severity code ≠ 3) : (s.recordFault code who unit addr det0 det1).power = s.power := by
  unfold State.recordFault State.actOnSeverity
  obtain ⟨o, f, tr, e⟩ := State.logRecord_frame ((s.bump 0x7000 1).bump (0x7010 + code / 256) (code % 256)) (severity code)
    (s.faultRecord code who unit addr det0 det1)
  rw [e]
  simp only [h, if_false]
  split
  · obtain ⟨h, u, e⟩ := State.msix_frame
      { (s.bump 0x7000 1).bump (0x7010 + code / 256) (code % 256) with objs := o, faults := f, trace := tr } 0
    rw [e]; rfl
  · rfl

theorem State.emitQuiet_power (s : State) (src : Nat) (spec : Bool) (who : BitVec 8) (ev p0 : Nat) (more : List Nat) :
    (s.emitQuiet src spec who ev p0 more).1.power = s.power := by
  obtain ⟨o, tr, e⟩ := State.emitQuiet_frame s src spec who ev p0 more; rw [e]

theorem State.raise_power (s : State) (code : Nat) (who : BitVec 8) (unit addr det0 det1 : Nat)
    (h : severity code ≠ 3) : (s.raise code who unit addr det0 det1).power = s.power := by
  have h0 : severity 0x0F01 ≠ 3 := by decide
  unfold State.raise
  dsimp only
  split
  · rw [State.faultEvent, State.emitQuiet_power, State.recordFault_power _ _ _ _ _ _ _ h0, State.faultEvent,
      State.emitQuiet_power, State.recordFault_power _ _ _ _ _ _ _ h]
  · rw [State.faultEvent, State.emitQuiet_power, State.recordFault_power _ _ _ _ _ _ _ h]

/-- An event leaves the device state and the power domains. -/
@[simp] theorem State.emit_power (s : State) (src : Nat) (spec : Bool) (who : BitVec 8) (ev p0 : Nat) (more : List Nat) :
    (s.emit src spec who ev p0 more).power = s.power := by
  have h0 : severity 0x0F01 ≠ 3 := by decide
  unfold State.emit
  dsimp only
  split
  · rw [State.raise_power _ _ _ _ _ _ _ h0, State.emitQuiet_power]
  · rw [State.emitQuiet_power]

theorem State.emitQuiet_cycle (s : State) (src : Nat) (spec : Bool) (who : BitVec 8) (ev p0 : Nat) (more : List Nat) :
    (s.emitQuiet src spec who ev p0 more).1.cycle = s.cycle := by
  obtain ⟨o, tr, e⟩ := State.emitQuiet_frame s src spec who ev p0 more; rw [e]

theorem State.emitQuiet_holds {s : State} {r : FaultRecord} (h : s.holdsRecord r) (src : Nat) (spec : Bool)
    (who : BitVec 8) (ev p0 : Nat) (more : List Nat) : (s.emitQuiet src spec who ev p0 more).1.holdsRecord r := by
  unfold State.holdsRecord
  rw [State.emitQuiet_faults, State.emitQuiet_cycle]
  exact h

/-- Raising 0x0F01 leaves such a record where it is. -/
theorem State.raise_holds {s : State} {r : FaultRecord} (h : s.holdsRecord r) (who : BitVec 8) (unit addr det0 det1 : Nat) :
    (s.raise 0x0F01 who unit addr det0 det1).holdsRecord r := by
  unfold State.raise
  dsimp only
  split
  · exact State.emitQuiet_holds (State.recordFault_holds _ _ _ _ _ _
      (State.emitQuiet_holds (State.recordFault_holds _ _ _ _ _ _ h) ..)) ..
  · exact State.emitQuiet_holds (State.recordFault_holds _ _ _ _ _ _ h) ..

/-- So does an event. -/
theorem State.emit_holds {s : State} {r : FaultRecord} (h : s.holdsRecord r) (src : Nat) (spec : Bool) (who : BitVec 8)
    (ev p0 : Nat) (more : List Nat) : (s.emit src spec who ev p0 more).holdsRecord r := by
  unfold State.emit
  dsimp only
  split
  · exact State.raise_holds (State.emitQuiet_holds h ..) ..
  · exact State.emitQuiet_holds h ..

/-- Raising a fault counts its code once; its record is held where the log admits it (R331, R332). -/
theorem State.raise_spec (s : State) (code : Nat) (who : BitVec 8) (unit addr det0 det1 : Nat) (hc : code < 0x0F01) :
    (s.raise code who unit addr det0 det1).obj (0x7010 + code / 256) (code % 256) =
      (s.obj (0x7010 + code / 256) (code % 256) + 1) % 2 ^ 32 ∧
    (logAdmits (severity code) s.faults.log.length = true → (s.raise code who unit addr det0 det1).holdsRecord
      { s.faultRecord code who unit addr det0 det1 with seq := s.faultSeq code unit }) := by
  have h7 : objKey (0x7010 + code / 256) (code % 256) ≠ objKey 0x7800 7 := by rw [objKey_fault]; unfold objKey; omega
  have hn : ¬ code = 0x0F01 := by omega
  constructor
  · unfold State.raise
    dsimp only
    split
    · rw [State.faultEvent, State.emitQuiet_obj _ _ _ _ _ _ _ _ _ h7, State.recordFault_count, if_neg hn,
        State.faultEvent, State.emitQuiet_obj _ _ _ _ _ _ _ _ _ h7, State.recordFault_count, if_pos rfl]
    · rw [State.faultEvent, State.emitQuiet_obj _ _ _ _ _ _ _ _ _ h7, State.recordFault_count, if_pos rfl]
  · intro h
    have h0 := State.recordFault_new s code who unit addr det0 det1 hc h
    unfold State.raise
    dsimp only
    split
    · exact State.emitQuiet_holds (State.recordFault_holds _ _ _ _ _ _ (State.emitQuiet_holds h0 ..)) ..
    · exact State.emitQuiet_holds h0 ..

/-- A code counted and a record held are a fault raised. -/
theorem raised_of_holds {s t : State} {code : Nat} {who : BitVec 8} {unit addr det0 det1 : Nat}
    (h1 : t.obj (0x7010 + code / 256) (code % 256) = (s.obj (0x7010 + code / 256) (code % 256) + 1) % 2 ^ 32)
    (h2 : logAdmits (severity code) s.faults.log.length = true → t.holdsRecord
      { s.faultRecord code who unit addr det0 det1 with seq := s.faultSeq code unit }) :
    Raised s t code who unit addr det0 det1 :=
  ⟨h1, fun h => ⟨_, State.holdsRecord_mem (h2 h), rfl, rfl, rfl, rfl, rfl, rfl, rfl, rfl⟩⟩

theorem State.raise_raised (s : State) (code : Nat) (who : BitVec 8) (unit addr det0 det1 : Nat) (hc : code < 0x0F01) :
    Raised s (s.raise code who unit addr det0 det1) code who unit addr det0 det1 :=
  raised_of_holds (State.raise_spec s code who unit addr det0 det1 hc).1 (State.raise_spec s code who unit addr det0 det1 hc).2

/-- An event leaves every fault counter but that of 0x0F01. -/
theorem State.emit_count (s : State) (src : Nat) (spec : Bool) (who : BitVec 8) (ev p0 : Nat) (more : List Nat)
    (c : Nat) (hc : c < 0x0F01) : (s.emit src spec who ev p0 more).obj (0x7010 + c / 256) (c % 256) =
      s.obj (0x7010 + c / 256) (c % 256) := by
  have h7 : objKey (0x7010 + c / 256) (c % 256) ≠ objKey 0x7800 7 := by rw [objKey_fault]; unfold objKey; omega
  have hn : ¬ c = 0x0F01 := by omega
  unfold State.emit
  dsimp only
  split
  · unfold State.raise
    dsimp only
    split
    · rw [State.faultEvent, State.emitQuiet_obj _ _ _ _ _ _ _ _ _ h7, State.recordFault_count, if_neg hn,
        State.faultEvent, State.emitQuiet_obj _ _ _ _ _ _ _ _ _ h7, State.recordFault_count, if_neg hn,
        State.emitQuiet_obj _ _ _ _ _ _ _ _ _ h7]
    · rw [State.faultEvent, State.emitQuiet_obj _ _ _ _ _ _ _ _ _ h7, State.recordFault_count, if_neg hn,
        State.emitQuiet_obj _ _ _ _ _ _ _ _ _ h7]
  · rw [State.emitQuiet_obj _ _ _ _ _ _ _ _ _ h7]

/-- A fault raised stays raised behind an event of its cycle. -/
theorem State.raise_emit_raised (s : State) (code : Nat) (who : BitVec 8) (unit addr det0 det1 : Nat) (hc : code < 0x0F01)
    (src : Nat) (spec : Bool) (w : BitVec 8) (ev p0 : Nat) (more : List Nat) :
    Raised s ((s.raise code who unit addr det0 det1).emit src spec w ev p0 more) code who unit addr det0 det1 := by
  obtain ⟨h1, h2⟩ := State.raise_spec s code who unit addr det0 det1 hc
  exact raised_of_holds ((State.emit_count _ _ _ _ _ _ _ _ hc).trans h1) fun h => State.emit_holds (h2 h) ..

end Sys2Proof.Machine
end

