-- ==== Sys2Proof/Laws/Memory.lean ====
section
/-! SUPPORT. The operations that change many bytes at once keep memory's canonical form, and what they leave. -/

namespace Sys2Proof.Machine

/-- Writing a list of cells one by one keeps the canonical form. -/
theorem State.foldl_wr8_wf (l : List Host.Cell) (f : Host.Cell → Nat) (s : State) (h : Memory.wf s.mem) :
    Memory.wf (l.foldl (fun t c => t.wr8 (f c) c.2) s).mem := by
  induction l generalizing s with
  | nil => exact h
  | cons c r ih => exact ih _ (State.wr8_wf s _ _ h)

/-- Copying a span keeps the canonical form. -/
theorem State.copySpan_wf (s : State) (src dst len : Nat) (h : Memory.wf s.mem) :
    Memory.wf (s.copySpan src dst len).mem :=
  State.foldl_wr8_wf _ _ _ (State.zeroSpan_wf s dst len h)

/-- Keeping some of the cells keeps the canonical form. -/
theorem Memory.wf_filter (m : List Host.Cell) (p : Host.Cell → Bool) (h : Memory.wf m) : Memory.wf (m.filter p) := by
  simp only [Memory.wf, twf, Bool.and_eq_true, List.all_eq_true, decide_eq_true_eq] at h ⊢
  exact ⟨tsorted_filter _ h.1, fun e he => h.2 e (List.mem_filter.1 he).1⟩

theorem State.parkD45_mem (s : State) : s.parkD45.mem = s.mem := by
  unfold State.parkD45
  split <;> rfl

/-- What a warm reset keeps of memory is in the canonical form (Table PW-7). -/
theorem State.warmWith_wf (s : State) (h : Memory.wf s.mem) : Memory.wf s.warmWith.mem := by
  have e : s.warmWith.mem = s.mem.filter fun c => s.keyStays c.1 := State.parkD45_mem _
  rw [e]
  exact Memory.wf_filter _ _ h

end Sys2Proof.Machine
end

