-- ==== Sys2Proof/Laws/Threads.lean ====
section
/-! SUPPORT. What an instruction of a thread can do: retire, wait, write a register, fault. -/

namespace Sys2Proof.Machine

/-- Retiring on the state with the order of issue moved on touches the one context. -/
theorem State.retire_only (s : State) (li : Table Nat) (n : Nat) (c : Context) :
    OnlyContext s (({ s with lastIssue := li } : State).retire n c) n ∧
      (({ s with lastIssue := li } : State).retire n c).context n = { c with pc := c.pc + 8 } := by
  refine ⟨⟨rfl, fun m hm => ?_⟩, ?_⟩
  · simp only [State.retire]
    rw [State.context_setContext_other _ _ _ _ hm]; rfl
  · simp [State.retire]

/-- Storing a context on the state with the order of issue moved on touches the one context. -/
theorem State.setContext_only (s : State) (li : Table Nat) (n : Nat) (c : Context) :
    OnlyContext s (({ s with lastIssue := li } : State).setContext n c) n ∧
      (({ s with lastIssue := li } : State).setContext n c).context n = c := by
  refine ⟨⟨rfl, fun m hm => ?_⟩, ?_⟩
  · rw [State.context_setContext_other _ _ _ _ hm]; rfl
  · simp

/-- A register write and the move past the instruction. -/
theorem Context.setReg_wrote (c : Context) (d : Reg) (v : W64) :
    c.wrote { c.setReg d v with pc := (c.setReg d v).pc + 8 } d v := by
  obtain ⟨h1, h2, h3, h4, h5, h6⟩ := Context.setReg_frame c d v
  refine ⟨fun r => Context.reg_setReg c d r v, ?_, h1, h2, h4, h6⟩
  rw [h5]

/-- An instruction that only writes a register completes: the register holds the value, nothing else is touched. -/
theorem State.retire_writes (s : State) (li : Table Nat) (n : Nat) (d : Reg) (v : W64) :
    OnlyContext s (({ s with lastIssue := li } : State).retire n ((s.context n).setReg d v)) n ∧
      (s.context n).wrote ((({ s with lastIssue := li } : State).retire n ((s.context n).setReg d v)).context n) d v := by
  obtain ⟨h1, h2⟩ := State.retire_only s li n ((s.context n).setReg d v)
  exact ⟨h1, by rw [h2]; exact Context.setReg_wrote _ _ _⟩

theorem State.runAB_completes (s : State) (th : Thread) (op : Nat) (d a b : Reg) (v : W64 → W64 → W64)
    (h : s.mayIssue th [a, b]) :
    OnlyContext s (s.runAB th op d a b v) (Thread.num th) ∧
      (s.context (Thread.num th)).wrote ((s.runAB th op d a b v).context (Thread.num th)) d
        (v ((s.context (Thread.num th)).reg a) ((s.context (Thread.num th)).reg b)) := by
  rw [State.runAB, State.issueOn_runs _ _ _ _ _ h.1 h.2]
  exact State.retire_writes ..

theorem State.runAI_completes (s : State) (th : Thread) (op : Nat) (d a : Reg) (i : Imm) (v : W64 → W64 → W64)
    (h : s.mayIssue th [a]) :
    OnlyContext s (s.runAI th op d a i v) (Thread.num th) ∧
      (s.context (Thread.num th)).wrote ((s.runAI th op d a i v).context (Thread.num th)) d
        (v ((s.context (Thread.num th)).reg a) (immVal i)) := by
  rw [State.runAI, State.issueOn_runs _ _ _ _ _ h.1 h.2]
  exact State.retire_writes ..

/-! ### Waiting -/

/-- A context that goes to WAIT keeps its registers and program counter; no other context, no memory, no counter is
touched. -/
theorem State.waitFor_context (s : State) (n op : Nat) (c : Context) (w : WaitKind) :
    (s.waitFor n op c w).context n = { c with state := .wait, wait := w, waitOp := BitVec.ofNat 8 op } := by
  simp [State.waitFor]

theorem State.waitFor_other (s : State) (n op : Nat) (c : Context) (w : WaitKind) (m : Nat) (h : m ≠ n) :
    (s.waitFor n op c w).context m = s.context m := by
  simp [State.waitFor, h]

@[simp] theorem State.waitFor_mem (s : State) (n op : Nat) (c : Context) (w : WaitKind) :
    (s.waitFor n op c w).mem = s.mem := by simp [State.waitFor]

@[simp] theorem State.waitFor_counters (s : State) (n op : Nat) (c : Context) (w : WaitKind) :
    (s.waitFor n op c w).counters = s.counters := by simp [State.waitFor]

@[simp] theorem State.waitFor_matrix (s : State) (n op : Nat) (c : Context) (w : WaitKind) :
    (s.waitFor n op c w).matrix = s.matrix := by simp [State.waitFor]

@[simp] theorem State.waitFor_queues (s : State) (n op : Nat) (c : Context) (w : WaitKind) :
    (s.waitFor n op c w).queues = s.queues := by simp [State.waitFor]

/-! ### Faults of a thread -/

/-- The context of a stopped thread. -/
theorem State.stopThread_context (s : State) (n code : Nat) :
    (s.stopThread n code).context n = { s.context n with state := .faulted, wait := .none } := by
  simp [State.stopThread]

theorem State.stopThread_other (s : State) (n code m : Nat) (h : m ≠ n) :
    (s.stopThread n code).context m = s.context m := by
  simp [State.stopThread, h]

theorem State.setContext_obj (s : State) (n : Nat) (c : Context) (i j : Nat) : (s.setContext n c).obj i j = s.obj i j := rfl

theorem State.setContext_holds {s : State} {r : FaultRecord} (h : s.holdsRecord r) (n : Nat) (c : Context) :
    (s.setContext n c).holdsRecord r := h

/-- A fault of a thread: the record R105 lays down, the thread in FAULTED with its registers kept, memory, counters and
the matrix untouched. -/
theorem State.threadFault_spec (s : State) (n code word : Nat) (hc : code < 0x0F01) :
    Raised s (s.threadFault n code word) code (partByte (s.contextPart n)) (n / 64) (s.context n).pc.toNat
      (s.threadId n) word ∧
    (s.threadFault n code word).context n = { s.context n with state := .faulted, wait := .none } ∧
    (∀ m, m ≠ n → (s.threadFault n code word).context m = s.context m) ∧
    (s.threadFault n code word).mem = s.mem ∧ (s.threadFault n code word).counters = s.counters ∧
    (s.threadFault n code word).matrix = s.matrix ∧ (s.threadFault n code word).queues = s.queues := by
  refine ⟨?_, ?_, fun m hm => ?_, ?_, ?_, ?_, ?_⟩
  · obtain ⟨h1, h2⟩ := State.raise_spec s code (s.thWho n) (n / 64) (s.context n).pc.toNat (s.threadId n) word hc
    unfold State.threadFault State.stopThread State.threadRaise
    refine raised_of_holds ?_ fun h => State.emit_holds (State.setContext_holds (h2 h) _ _) ..
    rw [State.emit_count _ _ _ _ _ _ _ _ hc, State.setContext_obj, h1]
  · unfold State.threadFault
    rw [State.stopThread_context]
    simp [State.threadRaise]
  · unfold State.threadFault
    rw [State.stopThread_other _ _ _ _ hm]
    simp [State.threadRaise]
  all_goals simp [State.threadFault, State.stopThread, State.threadRaise]

end Sys2Proof.Machine
end

