-- ==== Sys2Proof/WellFormed.lean ====
section
/-! DEFINITION. Well-formed commands: what a sender of the spec can send. A command's meaning is total all the same;
these checks say which operand values the spec gives a command. -/

namespace Sys2Proof

/-- A write of n bytes at offset `off` of an array of `size` bytes writes something and stays inside it. -/
def writeFits (off n size : Nat) : Bool := 0 < n && off + n ≤ size

/-- A Trellis request or response in flight: its address lies in the 53 bits of a global address, and its data
length is what its kind carries (R256, Table TL-2). -/
def Packet.wf (p : Packet) (carries : Bool) : Bool :=
  p.addr.toNat < 2 ^ 53 && p.data.length == (if carries then p.len.toNat else 0)

/-- A response carries its data, or under the error bit only its code (R256). -/
def Packet.wfResponse (p : Packet) (carries : Bool) : Bool := p.wf (carries && !p.error)

/-- A KPP request as received: at most 64 bytes on CAN FD and the 256 of the mailbox buffer, the payload those after the
eight of the header, of which KPP uses 56 (Table KP-2, Table KP-7). -/
def KppRequest.wf (r : KppRequest) : Bool :=
  r.length ≤ (match r.transport with | .can => 64 | .mailbox => 256) && r.payload.length == min 56 (r.length - 8)

/-- A response carries at most 56 bytes of payload (Table KP-6). -/
def KppPacket.wfResponse (m : KppPacket) : Bool := m.frame.payload.length ≤ 56

/-- A control flit returns credits for each of the four virtual channels (R255). -/
def ControlFlit.wf (f : ControlFlit) : Bool :=
  f.returned.length == 4 && (f.sizes.isEmpty || f.sizes == [96, 96, 288, 32])

/-- An AUDIT packet counts both ways for each of the four virtual channels (R262). -/
def AuditMsg.wf (m : AuditMsg) : Bool := m.held.length == 4 && m.returned.length == 4

/-- A word that a thread fetched with opcode 0x78 to 0x7F (R92). -/
def Privileged.wf : Privileged → Bool
  | .fromThread w => 0x78 ≤ w.toNat / 2 ^ 56 && w.toNat / 2 ^ 56 < 0x80
  | .keeperStart _ _ => true
  | .keeperStop => true
  | .keeperInspect => true

/-- A register access moves at least one byte; a read brings none. -/
def RegSpace.wf (r : RegSpace) (bytes : List Byte) : Bool :=
  match r with
  | .bar0Read n => 0 < n && bytes.isEmpty
  | .bar2Read n => 0 < n && bytes.isEmpty
  | .configRead _ => bytes.isEmpty
  | _ => !bytes.isEmpty

/-- A host access to BAR4 moves at least one byte. -/
def HostAccess.wf : HostAccess → Bool
  | .read n => 0 < n
  | .write bs => !bs.isEmpty

/-- A JTAG access to the register space or the Keeper SRAM moves at least one byte. -/
def JtagOp.wf : JtagOp → Bool
  | .readRegister _ n => 0 < n
  | .writeRegister _ bs => !bs.isEmpty
  | .readSram _ n => 0 < n
  | .writeSram _ bs => !bs.isEmpty
  | .trstLow => true
  | .trstHigh => true
  | .instruction _ => true
  | .preload _ => true
  | .manufacturingTest => true

/-- A junction temperature in millidegrees is a signed 32-bit number (R387). -/
def temperatureWf (milli : Int) : Bool := -(2 ^ 31) ≤ milli && milli < 2 ^ 31

/-- A command is one that a sender of the spec can send. -/
def Instr.wf : Instr → Bool
  | .hostEpochMark bytes => !bytes.isEmpty
  | .tick _ _ _ phase _ _ => phase.toNat < 1000000
  | .doorbell _ offset width _ => 0 < width.val && offset.val + width.val ≤ 64
  | .privilegedOpcode _ op => op.wf
  | .windowWrite _ _ off bytes => writeFits off.val bytes.length 32
  | .registerSlicesWrite _ _ off bytes => writeFits off.val bytes.length 18
  | .alertPost _ size _ => size == 1 || size == 2 || size == 4 || size == 8
  | .controlFlit _ f => f.wf
  | .rdReq _ _ p => p.wf false
  | .bulkRd _ _ p => p.wf false
  | .wrReq _ _ p => p.wf true
  | .bulkWr _ _ p => p.wf true
  | .atReq _ _ p => p.wf false && (p.len.toNat == 4 || p.len.toNat == 8)
  | .rdRsp _ _ p => p.wfResponse true
  | .atRsp _ _ p => p.wfResponse true
  | .wrRsp _ _ p => p.wfResponse false
  | .kppFwd _ _ m => m.frame.wf
  | .kppRsp _ _ m => m.wfResponse
  | .audit _ _ m => m.wf
  | .reassignment _ _ value => value < 2 ^ 256
  | .read r => r.wf
  | .write r => r.wf
  | .readSeg r => r.wf
  | .writeSeg r => r.wf
  | .segAbort r => r.wf
  | .kppRelease r => r.wf
  | .commandImage data => data.length ≤ 64
  | .registerWrite space _ bytes => space.wf bytes
  | .bar4Access _ a => a.wf
  | .imageBlockWrite bytes => !bytes.isEmpty
  | .thermalWarn _ milli => temperatureWf milli
  | .thermalClear milli => temperatureWf milli
  | .thermalTrip _ milli => temperatureWf milli
  | .temperatureBelowWarning milli => temperatureWf milli
  | .supplyFault _ millivolt => millivolt < 2 ^ 16
  | .jtagAccess op => op.wf
  | .epochRefEdge _ => true
  | .filteredPulse _ => true
  | .ppsInEdge _ => true
  | .predictedEdge => true
  | .windowClose => true
  | .trackerStart => true
  | .tickSend => true
  | .ingestCutoff _ _ => true
  | .stepOpen _ _ => true
  | .almanacRelease _ _ => true
  | .almanacSignal _ _ => true
  | .stepCommit _ _ => true
  | .almanacPublish _ _ => true
  | .timerStart _ _ => true
  | .timerStop _ _ => true
  | .almanacWake _ _ => true
  | .almanacRest _ _ => true
  | .prefetch _ _ => true
  | .timerExpire _ => true
  | .almanacExchangeRequest _ => true
  | .almanacExchangeCancel => true
  | .pageValidationDone => true
  | .streamTableBaseWrite _ => true
  | .stateIn _ => true
  | .stateInCreate _ => true
  | .stateOut _ => true
  | .stateOutEnd _ => true
  | .stepBind _ => true
  | .exportRecord _ => true
  | .importRecord _ => true
  | .prefetchSwapInDone _ => true
  | .matmul _ => true
  | .matmulRaw _ => true
  | .matmulCombine _ => true
  | .element _ => true
  | .scanPrefixSum _ => true
  | .scanSegmentedSum _ => true
  | .scanAffine _ => true
  | .reduce _ => true
  | .reduceSoftMaxThreePass _ => true
  | .reduceSoftMaxTwoPass _ => true
  | .cacheFill _ => true
  | .cacheEvict _ => true
  | .tableLoad _ => true
  | .copy _ => true
  | .fill _ => true
  | .fence _ => true
  | .signal _ => true
  | .nop _ => true
  | .publish _ => true
  | .hostRingWrite _ => true
  | .ingest _ _ => true
  | .bufferGrant _ => true
  | .descriptorEnd _ => true
  | .heldModeSet _ => true
  | .heldModeClear _ => true
  | .queueConfigWrite _ _ _ => true
  | .add _ _ _ _ => true
  | .sub _ _ _ _ => true
  | .and _ _ _ _ => true
  | .or _ _ _ _ => true
  | .xor _ _ _ _ => true
  | .shl _ _ _ _ => true
  | .shr _ _ _ _ => true
  | .sra _ _ _ _ => true
  | .mul _ _ _ _ => true
  | .mulh _ _ _ _ => true
  | .min _ _ _ _ => true
  | .max _ _ _ _ => true
  | .slt _ _ _ _ => true
  | .sltu _ _ _ _ => true
  | .addi _ _ _ _ => true
  | .andi _ _ _ _ => true
  | .ori _ _ _ _ => true
  | .xori _ _ _ _ => true
  | .shli _ _ _ _ => true
  | .shri _ _ _ _ => true
  | .srai _ _ _ _ => true
  | .muli _ _ _ _ => true
  | .mini _ _ _ _ => true
  | .maxi _ _ _ _ => true
  | .slti _ _ _ _ => true
  | .sltui _ _ _ _ => true
  | .lih _ _ _ => true
  | .ld8 _ _ _ _ => true
  | .ld16 _ _ _ _ => true
  | .ld32 _ _ _ _ => true
  | .ld64 _ _ _ _ => true
  | .lds8 _ _ _ _ => true
  | .lds16 _ _ _ _ => true
  | .lds32 _ _ _ _ => true
  | .st8 _ _ _ _ => true
  | .st16 _ _ _ _ => true
  | .st32 _ _ _ _ => true
  | .st64 _ _ _ _ => true
  | .aadd32 _ _ _ _ _ => true
  | .aadd64 _ _ _ _ _ => true
  | .aswap32 _ _ _ _ _ => true
  | .aswap64 _ _ _ _ _ => true
  | .acas32 _ _ _ _ _ => true
  | .acas64 _ _ _ _ _ => true
  | .accessResponse _ _ => true
  | .beq _ _ _ _ => true
  | .bne _ _ _ _ => true
  | .blt _ _ _ _ => true
  | .bge _ _ _ _ => true
  | .bltu _ _ _ _ => true
  | .bgeu _ _ _ _ => true
  | .jal _ _ _ => true
  | .jalr _ _ _ _ => true
  | .qput _ _ _ _ _ => true
  | .qputx _ _ _ _ _ => true
  | .qputs _ _ _ _ _ => true
  | .qcred _ _ _ => true
  | .qwait _ _ _ => true
  | .cinc _ _ _ _ => true
  | .cwait _ _ _ _ => true
  | .cread _ _ _ _ => true
  | .ewait _ _ _ => true
  | .eread _ _ _ => true
  | .mget _ _ _ => true
  | .mclr _ _ => true
  | .spawn _ _ _ _ _ => true
  | .yield _ => true
  | .park _ => true
  | .halt _ => true
  | .tid _ _ => true
  | .fenceL _ => true
  | .fenceG _ => true
  | .waitEnded _ => true
  | .portGrant _ => true
  | .cacheWriteBackStart => true
  | .cacheWriteBackDone => true
  | .dramTraining _ => true
  | .codewordUncorrectable _ => true
  | .replayTimeout _ => true
  | .vote _ _ _ => true
  | .decide _ _ _ => true
  | .query _ _ _ => true
  | .answer _ _ _ => true
  | .auditSend _ => true
  | .remoteTimeout _ => true
  | .portEnable _ => true
  | .linkTrained _ => true
  | .trainingTimeout _ => true
  | .lockLoss _ => true
  | .retrain _ => true
  | .voteWindowExpire _ => true
  | .decisionDeadline _ => true
  | .queryTimeout _ => true
  | .recoveryEntry _ _ => true
  | .partitionLock => true
  | .partitionUnlock => true
  | .scrubDone _ => true
  | .auditMark => true
  | .clientIdleTimeout _ => true
  | .segmentTimeout _ => true
  | .forwardTimeout _ _ => true
  | .mailboxDoorbell => true
  | .applyRates => true
  | .heartbeat => true
  | .classicFrame _ => true
  | .consumerTimeout => true
  | .commandImageDelivery => true
  | .alertImage => true
  | .alertAcknowledge _ => true
  | .faultAcknowledge _ => true
  | .stateRequestConfig => true
  | .stateRequestReady => true
  | .stateRequestRun => true
  | .ridxWrite _ _ => true
  | .hostRingConfig _ _ _ => true
  | .pcieLinkDown _ => true
  | .perstN => true
  | .hostDmaError _ _ => true
  | .functionLevelReset => true
  | .domainOff _ => true
  | .domainRetain _ => true
  | .domainOn _ => true
  | .drainComplete _ => true
  | .drainTimeout _ => true
  | .switchOnComplete _ => true
  | .restRequest => true
  | .restEntryComplete => true
  | .restDrainTimeout => true
  | .wakeN => true
  | .clkreqNWake => true
  | .canWake _ => true
  | .wakeComplete => true
  | .coldReset _ => true
  | .warmReset _ => true
  | .warmResetDrainTimeout => true
  | .imageStart => true
  | .nextImageWrite _ => true
  | .avsUpdate _ => true
  | .timestamp => true
  | .traceEnable => true
  | .overflowPacket _ => true
  | .traceRingConfig _ _ => true
  | .debugLock => true
  | .epochBoundary => true
  | .streamTableCleared => true
  | .pcieLinkUp _ _ => true
  | .sysrstNRelease => true
  | .suppliesInTolerance => true
  | .supplyLoss _ => true
  | .illegalInstruction _ _ => true

end Sys2Proof
end

