-- ==== Sys2Proof/Tests/Slice0.lean ====
section
/-! SUPPORT. The model's own tests: ill-formed commands are refused by the checks, worked examples of the spec, and for
every statement states and operands that meet its hypotheses. -/

namespace Sys2Proof.Machine.Tests

-- one test after another: each waits for the kernel, and a thread each would take too much memory
set_option Elab.async false

/-! ### Helpers -/

/-- The outcome is a next state of which f holds. -/
def ok (o : Host.Outcome State Fault Refusal) (f : State → Bool) : Bool :=
  match o with
  | .next t => f t
  | .fault _ => false
  | .refused _ => false

/-- The outcome is this next state. -/
def isNext (o : Host.Outcome State Fault Refusal) (t : State) : Bool := ok o fun x => decide (x = t)

/-- The state that an outcome answers. -/
def after (o : Host.Outcome State Fault Refusal) : State :=
  match o with
  | .next t => t
  | .fault _ => {}
  | .refused _ => {}

/-- An SX4 in RUN. -/
def run0 : State := { power := { dev := .run } }

/-- Objects set one after another. -/
def withObjs (s : State) (l : List (Nat × Nat × Nat)) : State :=
  l.foldl (fun s e => s.setObj e.1 e.2.1 e.2.2) s

/-- A record of n bytes from its fields: offset, width in bytes, value. -/
def record (n : Nat) (l : List (Nat × Nat × Nat)) : List Byte :=
  l.foldl (fun b e => patch b e.1 (natLe e.2.2 e.2.1)) (zeros n)

/-- A state whose queue q has one descriptor released in its ring, in the Thread Store of bed 3 from 0x8000. -/
def ringed (s : State) (q n : Nat) (l : List (Nat × Nat × Nat)) : State :=
  let t := (withObjs s [(0x3101, q + 1, memKey 23 0x8000)]).wrBytes (memKey 23 0x8000) (record n l)
  t.setQueue q (if n = 128 then { tail := 2, rel := 2, longs := [0] } else { tail := 1, rel := 1 })

/-- The descriptor that a ringed queue may dispatch. -/
def descOf (s : State) (q : Nat) : Desc := s.readDesc q (s.queue q).disp

/-- Queue q's work is over with this ending. -/
def ended (t : State) (q status code detail : Nat) : Bool :=
  match (t.queue q).run with
  | some r => decide (r.phase = .finished) && decide (r.ending.status.toNat = status) &&
      decide (r.ending.code.toNat = code) && decide (r.ending.detail.toNat = detail)
  | none => false

/-- The hypotheses that make a queue's front descriptor accepted. -/
def accepted (s : State) (q : Nat) (ranges : Bad) : Bool :=
  let d := descOf s q
  decide (s.front q = some d) && decide ((s.startRun q d).headerCheck q d ranges = none) &&
    decide (s.ringDenied q (s.entryKey q (d.index + BitVec.ofNat 32 0).toNat) 64 true = none)

theorem accepted_meets (s : State) (q : Nat) (ranges : Bad) (h : accepted s q ranges = true) :
    Accepted s q (descOf s q) ranges := by
  simp only [accepted, Bool.and_eq_true, decide_eq_true_eq] at h
  refine ⟨h.1.1, ?_, h.1.2⟩
  intro j hj
  obtain rfl : j = 0 := by omega
  exact h.2

/-! ### What a unit reaches -/

/-- Window w lets requests like r reach region `region` from its offset 0 on, up to `size`. -/
def covers (s : State) (r : Rq) (region w size : Nat) : Bool :=
  let v := s.window w
  decide (w < 64) && (List.range w).all (fun j => decide (bits (s.window j) 52 48 ≠ region)) && v.testBit 143 &&
    decide (bits v 52 48 = region) && decide (bits v 47 0 = 0) && decide (size ≤ bits v 127 64) &&
    hasPath r.master (bits v 131 128) && windowGrants v r

/-- External memory from `lo` below `size` lies open to requests like r; the stream table is the State Mover's, or the
Keeper's, or not set up, or lies elsewhere. -/
def ramOpen (s : State) (r : Rq) (lo size : Nat) : Bool :=
  covers s r 0 0 size && decide (s.chip = 0) && !s.memoryFenced && decide (size ≤ s.obj 0x3400 5) &&
    decide (size ≤ 2 ^ 48) && !(s.window 0).testBit 136 &&
    (decide (r.master = 8) || decide (r.master = 11) || !s.streams.tableSet || decide (size ≤ s.entryOff 0) ||
      decide (s.entryOff 0 + 32 * Config.streamCount ≤ lo))

/-- An address of this SX4 in region `region`, by either of its two names. -/
def named (a region off : Nat) : Prop := a = memKey region off ∨ a = localAddr region off

theorem named_fields (a region off : Nat) (h : named a region off) (hr : region < 32) (ho : off < 2 ^ 48) :
    ¬ a ≥ 2 ^ 61 ∧ (a.testBit 60 = true ∨ bits a 59 53 = 0) ∧ bits a 52 48 = region ∧ bits a 47 0 = off ∧
      regionOf a = region := by
  have hb : ∀ lo hi, bits a hi lo = a / 2 ^ lo % 2 ^ (hi - lo + 1) := fun lo hi => by
    simp only [bits, Nat.shiftRight_eq_div_pow]
  have h1 : bits a 52 48 = region ∧ bits a 47 0 = off ∧ ¬ a ≥ 2 ^ 61 := by
    rw [hb, hb]
    rcases h with h | h <;> subst h <;> simp only [localAddr, memKey] <;> refine ⟨?_, ?_, ?_⟩ <;> omega
  refine ⟨h1.2.2, ?_, h1.1, h1.2.1, h1.1⟩
  rcases h with h | h
  · right; rw [hb, h]; simp only [memKey]; omega
  · left
    rw [Nat.testBit_eq_decide_div_mod_eq, decide_eq_true_eq, h]
    simp only [localAddr, memKey]
    omega

theorem resolve_ram (s : State) (r : Rq) (lo size a n off : Nat) (h : ramOpen s r lo size = true) (hlo : lo ≤ off)
    (ho : off < size) (ha : named a 0 off) : s.resolve { r with addr := a, len := n } = .ok (.mem (memKey 0 off)) := by
  simp only [ramOpen, covers, Bool.and_eq_true, decide_eq_true_eq, Bool.not_eq_true', Bool.or_eq_true] at h
  obtain ⟨⟨⟨⟨⟨⟨⟨⟨⟨⟨⟨⟨⟨-, -⟩, h1⟩, h2⟩, h3⟩, h4⟩, h5⟩, h6⟩, hc⟩, hf⟩, hcap⟩, hs⟩, he⟩, ht⟩ := h
  obtain ⟨g1, g2, g3, g4, -⟩ := named_fields a 0 off ha (by decide) (by omega)
  have hd : s.deciding 0 off = some 0 := by
    have : windowHits (s.window 0) 0 off = true := by
      simp only [windowHits, h1, h2, h3, Bool.true_and, Bool.and_eq_true, decide_eq_true_eq, decide_true]
      omega
    unfold State.deciding
    rw [show List.range 64 = 0 :: (List.range 63).map Nat.succ from by decide, List.find?_cons, this]
  have hl : (!a.testBit 60 && decide (BitVec.ofNat 7 (bits a 59 53) ≠ s.chip)) = false := by
    rcases g2 with g2 | g2 <;> simp [g2, hc]
  have ho' : ownPort r.master 0 = false := by
    unfold ownPort
    by_cases h4 : 4 ≤ r.master <;> simp [h4] <;> omega
  have hg : windowGrants (s.window 0) { r with addr := a, len := n } = true := h6
  have hT : s.tableDenies { r with addr := a, len := n } off = false := by
    unfold State.tableDenies
    rcases ht with (((ht | ht) | ht) | ht) | ht
    · simp [ht]
    · simp [ht]
    · simp [ht]
    · have : ¬ s.entryOff 0 ≤ off := by omega
      simp [this]
    · have : ¬ off < s.entryOff 0 + 32 * Config.streamCount := by omega
      simp [this]
  unfold State.resolve
  simp only [g1, if_false, hl, Bool.false_eq_true, g3, g4, ho', Bool.false_and, hd, h5, hg, hT, hf, he, beyondRegion]
  simp
  omega

theorem opens_ram (s : State) (m : Nat) (who : BitVec 8) (wr : Bool) (size base off len : Nat)
    (h : ramOpen s (unitRq m who wr) off size = true) (hb : base = memKey 0 0 ∨ base = localAddr 0 0) (hl : off + len ≤ size) :
    s.opens m who wr (base + off) len := by
  have h48 : size ≤ 2 ^ 48 := by
    simp only [ramOpen, Bool.and_eq_true, decide_eq_true_eq] at h
    exact h.1.1.2
  intro a n h1 h2 h3 _
  have hn : named a 0 (a - base) := by
    rcases hb with hb | hb <;> [left; right] <;> (subst hb; simp only [localAddr, memKey] at *; omega)
  have ho : a - base < size := by omega
  refine ⟨?_, _, resolve_ram s _ off size a n _ h (by omega) ho hn⟩
  rw [(named_fields a 0 _ hn (by decide) (by omega)).2.2.2.2]
  decide

/-- Bed b's units reach their own Bed Store. -/
def bedOpen (s : State) (b : Nat) (who : BitVec 8) : Bool :=
  decide (b < 4) && decide (s.chip = 0) && s.isOn (9 + 9 * b) && s.isOn (10 + 9 * b) && decide (s.scrubs = []) &&
    (List.range 64).all fun i => s.owns (who.toNat % 8) 3 (64 * b + i)

theorem opens_bed (s : State) (b : Nat) (who : BitVec 8) (wr : Bool) (off len : Nat) (h : bedOpen s b who = true)
    (hl : off + len ≤ 2 ^ 22) : s.opens (4 + b) who wr (memKey (4 + b) off) len := by
  simp only [bedOpen, Bool.and_eq_true, decide_eq_true_eq, List.all_eq_true] at h
  obtain ⟨⟨⟨⟨⟨hb, hc⟩, h9⟩, h10⟩, hs⟩, ho⟩ := h
  intro a n h1 h2 h3 _
  have hn : named a (4 + b) (a - memKey (4 + b) 0) := by left; simp only [memKey] at *; omega
  have hx : a - memKey (4 + b) 0 < 2 ^ 22 := by simp only [memKey] at *; omega
  obtain ⟨g1, g2, g3, g4, g5⟩ := named_fields a (4 + b) _ hn (by omega) (by omega)
  refine ⟨by rw [g5]; omega, memKey (4 + b) (a - memKey (4 + b) 0), ?_⟩
  generalize a - memKey (4 + b) 0 = off' at *
  have hl' : (!a.testBit 60 && decide (BitVec.ofNat 7 (bits a 59 53) ≠ s.chip)) = false := by
    rcases g2 with g2 | g2 <;> simp [g2, hc]
  have how := ho (off' / 2 ^ 16) (List.mem_range.mpr (by omega))
  have hr : (4 + b) % 4 = b := by omega
  have hp : s.portDenies { unitRq (4 + b) who wr with addr := a, len := n } (4 + b) off' = none := by
    have hd : memDomain (4 + b) off' = some (if off' < 2 ^ 21 then 9 + 9 * b else 10 + 9 * b) := by
      unfold memDomain
      simp only [hr]
      rw [if_neg (by omega), if_neg (by omega), if_pos (by omega)]
    have hon : s.isOn (if off' < 2 ^ 21 then 9 + 9 * b else 10 + 9 * b) = true := by split <;> assumption
    have hby : s.ownsByte (who.toNat % 8) (4 + b) off' = true := by
      unfold State.ownsByte
      simp only [hr]
      rw [if_neg (by omega), if_pos (by omega)]
      exact how
    have hh : ∀ x, s.heldBytes x (4 + b) off' = false := fun x => by
      unfold State.heldBytes
      rw [show decide (8 ≤ 4 + b) = false from by simp; omega]
      simp
    unfold State.portDenies
    simp only [hd, hon, hs, State.scrubbing, hh, Rq.part, unitRq, hby]
    simp
  have hown : ownPort (4 + b) (4 + b) = true := by
    unfold ownPort
    simp
    omega
  have hsz : off' < regionSize (4 + b) := by
    unfold regionSize
    rw [if_neg (by omega), if_pos (by omega)]
    exact hx
  unfold State.resolve
  simp only [g1, if_false, hl', Bool.false_eq_true, g3, g4]
  rw [if_pos (by rw [show (unitRq (4 + b) who wr).master = 4 + b from rfl, hown]; simp [hsz])]
  rw [hp]

/-- Every piece of a short span, tried one by one. -/
def opensBy (s : State) (m : Nat) (who : BitVec 8) (wr : Bool) (addr len : Nat) : Bool :=
  (List.range len).all fun i => (List.range (Min.min 64 (len - i))).all fun j => decide (64 < (addr + i) % 64 + (j + 1)) ||
    (decide (regionOf (addr + i) ≠ 1) && match s.resolve { unitRq m who wr with addr := addr + i, len := j + 1 } with
      | .ok (.mem _) => true
      | _ => false)

theorem opens_by (s : State) (m : Nat) (who : BitVec 8) (wr : Bool) (addr len : Nat)
    (h : opensBy s m who wr addr len = true) : s.opens m who wr addr len := by
  intro a n h1 h2 h3 h4
  simp only [opensBy, List.all_eq_true, List.mem_range] at h
  have h5 := h (a - addr) (by omega) (n - 1) (by omega)
  rw [show addr + (a - addr) = a from by omega, show n - 1 + 1 = n from by omega] at h5
  simp only [Bool.or_eq_true, Bool.and_eq_true, decide_eq_true_eq] at h5
  rcases h5 with h5 | ⟨h5, h6⟩
  · omega
  · refine ⟨h5, ?_⟩
    split at h6
    · exact ⟨_, by assumption⟩
    · cases h6

/-- A span of bed b's own Bed Store. -/
def inBed (b addr len : Nat) : Bool := decide (memKey (4 + b) 0 ≤ addr) && decide (addr + len ≤ memKey (4 + b) (2 ^ 22))

theorem opens_in_bed (s : State) (b : Nat) (who : BitVec 8) (wr : Bool) (addr len : Nat) (h : bedOpen s b who = true)
    (hi : inBed b addr len = true) : s.opens (4 + b) who wr addr len := by
  simp only [inBed, Bool.and_eq_true, decide_eq_true_eq] at hi
  have h1 : addr = memKey (4 + b) (addr - memKey (4 + b) 0) := by simp only [memKey] at *; omega
  rw [h1]
  exact opens_bed s b who wr _ len h (by simp only [memKey] at *; omega)

/-- A stream that is unused or lies in bed b's own Bed Store. -/
def streamIn (b addr code vl : Nat) : Bool := decide (code = 0) || inBed b addr (vl * formatSize code)

theorem stream_open (u : State) (q : Nat) (wr : Bool) (addr code vl : Nat) (h : bedOpen u (u.qBed q) (u.qWho q) = true)
    (hi : streamIn (u.qBed q) addr code vl = true) : u.streamOpen q wr addr code vl := by
  simp only [streamIn, Bool.or_eq_true, decide_eq_true_eq] at hi
  rcases hi with hi | hi
  · exact .inl hi
  · exact .inr (opens_in_bed u _ _ wr addr _ h hi)

/-- The work has come to this state without a question to another device. -/
def unasked (u : State) (q : QueueId) : Bool := (u.asking.bind fun a => a.want).isNone && (u.queue q).run.isSome

/-- A span of external memory below `size`, by either name, that lies open to requests of master m. -/
def ramIn (s : State) (m : Nat) (who : BitVec 8) (wr : Bool) (size addr len : Nat) : Bool :=
  let off := if localAddr 0 0 ≤ addr then addr - localAddr 0 0 else addr
  ramOpen s (unitRq m who wr) off size && decide (off + len ≤ size)

theorem ram_in (s : State) (m : Nat) (who : BitVec 8) (wr : Bool) (size addr len : Nat)
    (h : ramIn s m who wr size addr len = true) : s.opens m who wr addr len := by
  simp only [ramIn, Bool.and_eq_true, decide_eq_true_eq] at h
  split at h
  · have := opens_ram s m who wr size (localAddr 0 0) (addr - localAddr 0 0) len h.1 (.inr rfl) h.2
    rwa [show localAddr 0 0 + (addr - localAddr 0 0) = addr from by omega] at this
  · have := opens_ram s m who wr size (memKey 0 0) addr len h.1 (.inl rfl) h.2
    rwa [show memKey 0 0 + addr = addr from by simp [memKey]] at this

/-- Every piece of a short span of the State Store, tried one by one. -/
def storeBy (s : State) (who : BitVec 8) (wr : Bool) (off len : Nat) : Bool :=
  (List.range len).all fun i => (List.range (Min.min 64 (len - i))).all fun j => decide (64 < (off + i) % 64 + (j + 1)) ||
    decide (s.resolve { unitRq 8 who wr with addr := localAddr 1 (off + i), len := j + 1 } = .ok (.mem (memKey 1 (off + i))))

theorem store_by (s : State) (who : BitVec 8) (wr : Bool) (off len : Nat) (h : storeBy s who wr off len = true) :
    s.storeOpen who wr off len := by
  intro a n h1 h2 h3 h4
  simp only [storeBy, List.all_eq_true, List.mem_range] at h
  have h5 := h (a - off) (by omega) (n - 1) (by omega)
  rw [show off + (a - off) = a from by omega, show n - 1 + 1 = n from by omega] at h5
  simp only [Bool.or_eq_true, decide_eq_true_eq] at h5
  rcases h5 with h5 | h5
  · omega
  · exact h5

/-- A place answers. -/
theorem is_ok {α β : Type} (x : Except α β) (h : x.isOk = true) : ∃ k, x = .ok k := by
  cases x with
  | error e => cases h
  | ok a => exact ⟨a, rfl⟩

/-! ### Danto -/

/-- Thread 3 of bed 1. -/
def thA : Thread := { bed := 1, ctx := 3 }

/-- A thread of P0 with s5 = 7, s6 = −2, s7 = 0x40, at 0x100. -/
def ctxA : Context :=
  { state := .ready, pc := 0x100, regs := [(5, 7), (6, 0xFFFFFFFFFFFFFFFE), (7, 0x40)] }

/-- The thread may issue. -/
def danto0 : State := run0.setContext 67 ctxA

/-- The same thread with an access outstanding whose result goes to s5. -/
def awaiting : State :=
  danto0.setContext 67 { ctxA with outstanding := [⟨9, .load 5 false, 0x1000000000000, 4, 0xF8, 0, true⟩] }

/-- The same thread with 16 stores outstanding. -/
def crowded : State :=
  danto0.setContext 67 { ctxA with outstanding := List.replicate 16 ⟨9, .store, 0, 8, 0xF8, 0, true⟩ }

theorem test_step_runs_front : ok (step { danto0 with pending := [.halt thA, .yield thA] }) (fun t =>
    decide (t.pending = [.yield thA]) && decide ((t.context 67).state = .free)) = true := by decide +kernel

theorem test_idle_cycle : ok (step run0) (fun t => decide (t.cycle = 1)) = true := by decide +kernel

/-- The words of Table TD-11. -/
theorem test_words : dantoOf thA 0x1029400000000001 = some (.addi thA 5 5 1) ∧
    dantoOf thA 0x51000A0000000000 = some (.cwait thA 0 5 0) ∧
    dantoOf thA 0x39020FFFFFFFFFF0 = some (.bne thA 8 7 0x1FFFFFFFFF0) := by decide +kernel

theorem test_may_issue : danto0.mayIssue thA [5, 6] ∧ danto0.mayIssue thA [] := by
  unfold State.mayIssue; decide +kernel

theorem test_add_wraps : ok (exec (.add thA 8 5 6) danto0) (fun t =>
    decide ((t.context 67).reg 8 = 5) && decide ((t.context 67).pc = 0x108)) = true := by decide +kernel

theorem test_mulh_signed : ok (exec (.mulh thA 8 5 6) danto0) (fun t =>
    decide ((t.context 67).reg 8 = 0xFFFFFFFFFFFFFFFF)) = true := by decide +kernel

theorem test_write_to_s0_discarded : ok (exec (.addi thA 0 5 1) danto0) (fun t =>
    decide ((t.context 67).reg 0 = 0) && decide ((t.context 67).regs = ctxA.regs)) = true := by decide +kernel

theorem test_srai_sign : ok (exec (.srai thA 8 6 1) danto0) (fun t =>
    decide ((t.context 67).reg 8 = 0xFFFFFFFFFFFFFFFF)) = true := by decide +kernel

theorem test_lih_places : ok (exec (.lih thA 8 1) danto0) (fun t =>
    decide ((t.context 67).reg 8 = 0x800000)) = true := by decide +kernel

theorem test_awaited : awaiting.issues thA = true ∧ (awaiting.context 67).awaited [5, 6] ≠ [] ∧
    ok (exec (.add thA 8 5 6) awaiting) (fun t => decide ((t.context 67).state = .wait)) = true := by decide +kernel

theorem test_out_of_turn : run0.issues thA = false := by decide +kernel

theorem test_seventeenth_access : crowded.mayIssue thA [7] ∧ 16 ≤ (crowded.context 67).outstanding.length ∧
    ok (exec (.ld64 thA 8 7 0) crowded) (fun t => decide ((t.context 67).wait = .room)) = true := by
  unfold State.mayIssue; decide +kernel

/-- A privileged word and an illegal one, and a context that the Keeper may start. -/
theorem test_privileged_and_illegal : danto0.mayIssue thA [] ∧ (0x7F00000000000000 : W64).toNat / 2 ^ 56 = 0x7F ∧
    dantoOf thA 0x7700000000000000 = none ∧ (danto0.context 68).state = .free ∧ danto0.owns 0 2 68 = true ∧ goodTarget 0x3FFF8 ∧
    danto0.isOn 11 = true := by
  unfold State.mayIssue goodTarget; decide +kernel

theorem test_privileged_faults : ok (exec (.privilegedOpcode thA (.fromThread 0x7800000000000000)) danto0) (fun t =>
    decide ((t.context 67).state = .faulted) && decide (t.obj 0x7013 3 = 1)) = true := by decide +kernel

/-- Addresses s7 + 0 and s7 − 0x40: 0x40 and 0, the lowest of region 0. -/
theorem test_good_addresses : danto0.mayIssue thA [7, 5] ∧ (danto0.context 67).outstanding.length < 16 ∧
    accessAddress danto0 thA 7 0 = 0x40 ∧ accessAddress danto0 thA 7 0x1FFFFFFFFC0 = 0 := by
  unfold State.mayIssue; decide +kernel

theorem test_load_goes_to_matrix : ok (exec (.ld64 thA 8 7 0) danto0) (fun t =>
    decide (t.matrix.requests.map (fun r => (r.addr, r.len, r.op)) = [(0x40, 8, .read)])) = true := by decide +kernel

/-- A misaligned access, a jump beyond the Thread Store, a counter selector with bit 6 set, another bed's counter. -/
theorem test_thread_fault_operands :
    (accessAddress danto0 thA 5 0).toNat % 8 ≠ 0 ∧ ¬ goodTarget (ctxA.pc + (0x40000 : Imm).signExtend 64) ∧
    ¬ goodTarget (ctxA.reg 5 + (0 : Imm).signExtend 64) ∧ (ctxA.reg 7 + (0 : Imm).signExtend 64).toNat % 1024 / 64 % 4 ≠ 0 ∧
    (ctxA.reg 5 + (0 : Imm).signExtend 64).toNat % 1024 / 64 % 4 = 0 ∧ danto0.owns 0 2 7 = true ∧
    (7 : Nat) / 256 ≠ thA.bed.val ∧ danto0.mayIssue thA [5, 6] ∧ danto0.mayIssue thA [5] ∧ danto0.mayIssue thA [] := by
  unfold State.mayIssue goodTarget; decide +kernel

theorem test_thread_faults : (∀ x ∈ [(Instr.ld64 thA 8 5 0, 2), (.jal thA 1 0x40000, 2), (.jalr thA 1 5 0, 2),
    (.cread thA 8 7 0, 2), (.cwait thA 5 6 0, 1), (.eread thA 8 3, 1), (.mget thA 8 8, 1), (.mclr thA 256, 1),
    (.beq thA 5 5 4, 2)],
    ok (exec x.1 danto0) (fun t => decide ((t.context 67).state = .faulted) && decide (t.obj 0x7013 x.2 = 1))
      = true) := by decide +kernel

/-- A load's response, a store's error response: the state of the thread that waits for it. -/
def answered (k : AccessKind) (r : Reply) : State :=
  { danto0.setContext 67 { ctxA with outstanding := [⟨9, k, 0x1000000000000, 2, 0xF8, 0x42, true⟩] } with
    matrix := { responses := [⟨9, .thread thA, 5, r⟩] } }

theorem test_response_hypotheses : ∀ x ∈ [answered (.load 8 true) (.data [0, 0x80]), answered .store (.error 0x0504)],
    (x.matrix.responses.find? fun y => decide (y.id = 9) && decide (y.origin = .thread thA)).isSome = true ∧
    x.isOn (2 + 9 * thA.bed.val) = true ∧ (x.context 67).outstanding.map (·.id) = [9] ∧ (x.context 67).state = .ready := by
  decide +kernel

theorem test_signed_load : ok (exec (.accessResponse thA 9) (answered (.load 8 true) (.data [0, 0x80]))) (fun t =>
    decide ((t.context 67).reg 8 = 0xFFFFFFFFFFFF8000)) = true := by decide +kernel

theorem test_store_error : ok (exec (.accessResponse thA 9) (answered .store (.error 0x0504))) (fun t =>
      decide ((t.context 67).state = .faulted) && decide (t.faults.log.map (·.det1) = [0x42])) = true ∧
    (answered .store (.error 0x0802)).traceOn = false ∧
    ok (exec (.accessResponse thA 9) (answered .store (.error 0x0802))) (fun t =>
      decide ((t.context 67).state = .faulted) && decide (t.faults.log = [])) = true := by decide +kernel

/-- A branch taken, one not taken, and jumps, with good targets at both ends of the Thread Store. -/
theorem test_branch_hypotheses : danto0.mayIssue thA [5, 6] ∧ ctxA.reg 6 ≠ ctxA.reg 5 ∧
    goodTarget (ctxA.pc + (0x3FEF8 : Imm).signExtend 64) ∧ goodTarget (ctxA.reg 7 + (0x1FFFFFFFFC0 : Imm).signExtend 64) := by
  unfold State.mayIssue goodTarget; decide +kernel

theorem test_blt_signed : ok (exec (.blt thA 6 5 0x3FEF8) danto0) (fun t => decide ((t.context 67).pc = 0x3FFF8)) = true ∧
    ok (exec (.bltu thA 6 5 0x3FEF8) danto0) (fun t => decide ((t.context 67).pc = 0x108)) = true := by decide +kernel

theorem test_jalr : ok (exec (.jalr thA 7 7 0x1FFFFFFFFC0) danto0) (fun t =>
    decide ((t.context 67).pc = 0) && decide ((t.context 67).reg 7 = 0x108)) = true := by decide +kernel

/-- Counter 64 + 63 of bed 1: selector 0x13F from s7 + 0xFF, its bed the thread's. -/
theorem test_counter_hypotheses : (ctxA.reg 7 + (0xFF : Imm).signExtend 64).toNat % 1024 = 0x13F ∧
    0x13F / 64 % 4 = 0 ∧ danto0.owns (danto0.contextPart 67) 2 127 = true ∧ 0x13F / 256 = thA.bed.val ∧
    ((danto0.counter 127).toNat + 2 ^ 32 - (ctxA.reg 5).toNat % 2 ^ 32) % 2 ^ 32 ≥ 2 ^ 31 ∧
    ((danto0.counter 127).toNat + 2 ^ 32 - (ctxA.reg 0).toNat % 2 ^ 32) % 2 ^ 32 < 2 ^ 31 := by decide +kernel

theorem test_cinc : ok (exec (.cinc thA 7 6 0xFF) danto0) (fun t => decide (t.counter 127 = 0xFFFFFFFE)) = true := by
  decide +kernel

theorem test_cwait : ok (exec (.cwait thA 7 5 0xFF) danto0) (fun t => decide ((t.context 67).state = .wait)) = true ∧
    ok (exec (.cwait thA 7 0 0xFF) danto0) (fun t => decide ((t.context 67).state = .ready)) = true := by decide +kernel

/-- The Tracker runs in epoch 7 at phase 0. -/
def timed : State := { danto0 with tracker := { state := .locked, running := true, epoch := 7 } }

theorem test_ewait : timed.tracker.running = true ∧
    ok (exec (.ewait thA 5 0) timed) (fun t => decide ((t.context 67).state = .ready)) = true ∧
    ok (exec (.ewait thA 5 5) timed) (fun t => decide ((t.context 67).wait = .epoch 7 7)) = true := by decide +kernel

theorem test_eread : ok (exec (.eread thA 8 0) timed) (fun t => decide ((t.context 67).reg 8 = 7)) = true := by
  decide +kernel

/-- The lowest FREE context of bed 1 is context 0; with every one READY there is none. -/
theorem test_spawn : goodTarget (ctxA.reg 7 + (0 : Imm).signExtend 64) ∧ (danto0.context 64).state = .free ∧
    danto0.owns (danto0.contextPart 67) 2 64 = true ∧
    ok (exec (.spawn thA 8 7 6 0) danto0) (fun t => decide ((t.context 64).reg 4 = 0xFFFFFFFFFFFFFFFE) &&
      decide ((t.context 64).pc = 0x40) && decide ((t.context 67).reg 8 = 64)) = true := by
  unfold goodTarget; decide +kernel

/-- Every context of bed 1 is taken. -/
def full : State := (List.range 64).foldl (fun s i => s.setContext (64 + i) { state := .wait, wait := .park 0 }) run0
  |>.setContext 67 ctxA

theorem test_spawn_none : full.mayIssue thA [7, 6] ∧
    (∀ m ∈ List.range 64, (full.context (64 + m)).state ≠ .free) ∧
    ok (exec (.spawn thA 8 7 6 0) full) (fun t => decide ((t.context 67).reg 8 = BitVec.allOnes 64) &&
      decide (t.obj 0x7013 4 = 1)) = true := by unfold State.mayIssue; decide +kernel

theorem test_fences : danto0.mayIssue thA [] ∧ (awaiting.context 67).outstanding.any (·.isLocal) = true ∧
    ok (exec (.fenceL thA) awaiting) (fun t => decide ((t.context 67).wait = .fenceLocal)) = true ∧
    ok (exec (.fenceG thA) danto0) (fun t => decide ((t.context 67).pc = 0x108)) = true := by
  unfold State.mayIssue; decide +kernel

theorem test_tid : ok (exec (.tid thA 8) danto0) (fun t => decide ((t.context 67).reg 8 = 67)) = true := by decide +kernel

/-- A thread in WAIT on counter 127 for 1, before and after the counter reaches it. -/
def parked (c : W32) : State :=
  { run0.setContext 67 { ctxA with state := .wait, wait := .counter 0x13F 1 } with counters := [(127, c)] }

theorem test_wait_ended : (parked 1).threadsIssue = true ∧ (parked 1).waitOver 67 ((parked 1).context 67) = true ∧
    2 ^ 31 ≤ (((parked 0xFFFFFFFF).counter 127).toNat + 2 ^ 32 - 1) % 2 ^ 32 ∧
    ok (exec (.waitEnded thA) (parked 1)) (fun t => decide ((t.context 67).state = .ready)) = true ∧
    isNext (exec (.waitEnded thA) (parked 0xFFFFFFFF)) (parked 0xFFFFFFFF) = true := by decide +kernel

/-! ### Queues and descriptors -/

/-- The thread of bed 1 with queue 7 (bed 3, its own partition's) in s5 and a ring for that queue. -/
def pusher : State := withObjs danto0 [(0x3101, 8, memKey 23 0x8000)] |>.wrBytes (memKey 21 0x40) (record 64 [(0, 1, 0x7F)])

theorem test_push_hypotheses : pusher.mayIssue thA (pushSources 0 5 true) ∧ pusher.qPart 7 = pusher.contextPart 67 ∧
    (0x40 + pushBytes 2 true ≤ 256 * 1024) ∧ pusher.qDoorbell 7 = false ∧ 2 ≤ pusher.credits 7 ∧ pusher.qHeld 7 = false ∧
    (danto0.qPart 7 = danto0.contextPart 67 ∧ danto0.credits 7 < 1) ∧
    (withObjs danto0 [(0x3100, 8, 0x2C120000)]).qPart 7 ≠ danto0.contextPart 67 ∧ pusher.ringOpen 7 0 2 := by
  unfold State.mayIssue State.ringOpen; decide +kernel

theorem test_qput : ok (exec (.qput thA 8 0 5 0x40) pusher) (fun t => decide ((t.queue 7).tail = 1) &&
    decide ((t.queue 7).rel = 1) && decide (t.rd8 (memKey 23 0x8000) = 0x7F)) = true := by decide +kernel

theorem test_qputs : ok (exec (.qputs thA 8 0 5 0x40) pusher) (fun t => decide ((t.queue 7).tail = 2) &&
    decide (t.rd8 (memKey 23 0x8040) = 0)) = true := by decide +kernel

theorem test_qput_without_credit : ok (exec (.qput thA 8 0 5 0x40) danto0) (fun t => decide ((t.context 67).reg 8 = 1) &&
    decide (t.obj 0x7014 1 = 1)) = true := by decide +kernel

theorem test_qput_foreign : ok (exec (.qput thA 8 0 5 0x40) (withObjs danto0 [(0x3100, 8, 0x2C120000)])) (fun t =>
    decide ((t.context 67).state = .faulted) && decide (t.obj 0x7014 3 = 1)) = true := by decide +kernel

theorem test_qcred : pusher.mayIssue thA [5] ∧ pusher.qDepth 7 = 64 ∧ (64 : Imm).toInt ≤ 64 ∧
    ok (exec (.qcred thA 8 5) pusher) (fun t => decide ((t.context 67).reg 8 = 64)) = true ∧
    ok (exec (.qwait thA 5 64) pusher) (fun t => decide ((t.context 67).state = .ready)) = true ∧
    ok (exec (.qwait thA 5 1) danto0) (fun t => decide ((t.context 67).state = .wait)) = true := by
  unfold State.mayIssue; decide +kernel

theorem test_credits : (0 : Nat) ≤ pusher.qDepth 7 ∧ (pusher.queue 7).tail = (pusher.queue 7).head + BitVec.ofNat 32 0 ∧
    pusher.credits 7 = 64 := by decide +kernel

/-- Queue 24 is a host's, of depth 64. -/
def rung : State := withObjs run0 [(0x3101, 25, memKey 23 0x8000)]

theorem test_doorbell_hypotheses : rung.hostReaches = true ∧
    { rung with power := { rung.power with perstLow := true } }.hostReaches = false ∧ rung.qDoorbell 24 = true ∧ rung.credits 24 = 64 ∧ rung.qDoorbell 0 = false := by
  decide +kernel

theorem test_doorbells : ok (exec (.doorbell 24 0 4 64) rung) (fun t => decide ((t.queue 24).tail = 64) &&
      decide ((t.queue 24).rel = 64)) = true ∧
    ok (exec (.doorbell 24 0 4 65) rung) (fun t => decide ((t.queue 24).tail = 0) &&
      decide ((t.queue 24).refused = 1)) = true ∧
    isNext (exec (.doorbell 24 0 8 0) rung) rung = true ∧
    ok (exec (.doorbell 24 0 4 0xFFFFFFFF) rung) (fun t => decide ((t.queue 24).stale = 1)) = true ∧
    ok (exec (.doorbell 24 3 1 0) rung) (fun t => decide ((t.queue 24).stale = 1)) = true ∧
    isNext (exec (.doorbell 24 4 4 64) rung) rung = true ∧
    ok (exec (.doorbell 0 0 4 1) rung) (fun t => decide (t.matrix.lastError.code = 0x0802)) = true := by decide +kernel

theorem test_queue_config_hypotheses : rung.keeperServes = true ∧ rung.locked = false ∧
    rung.queueValueOk .ringBase 24 (memKey 20 0x1000) = true ∧ rung.queueValueOk .ringBase 24 1 = false ∧
    rung.queueInUse 24 = false ∧ (rung.setQueue 24 { tail := 1 }).queueInUse 24 = true ∧
    (withObjs rung [(0x1201, 0, 1)]).locked = true ∧ rung.queueValueOk .binding 24 0x60020000 = true := by decide +kernel

theorem test_queue_config : ok (exec (.queueConfigWrite .ringBase 24 0x14000000001000) rung) (fun t =>
      decide (t.kpp.result = 0) && decide (t.qRing 24 = memKey 20 0x1000)) = true ∧
    ok (exec (.queueConfigWrite .ringBase 24 1) rung) (fun t => decide (t.kpp.result = 6)) = true ∧
    ok (exec (.queueConfigWrite .ringBase 24 0) (withObjs rung [(0x1201, 0, 1)])) (fun t => decide (t.kpp.result = 7))
      = true := by decide +kernel

theorem test_held_mode : ok (exec (.heldModeSet 24) rung) (fun t => t.qHeld 24) = true ∧
    ok (exec (.heldModeClear 24) ((withObjs rung [(0x3103, 25, 1)]).setQueue 24 { tail := 3 })) (fun t =>
      !t.qHeld 24 && decide ((t.queue 24).rel = 3)) = true := by decide +kernel

/-- A NOP in queue 0; an Imposer takes no FILL; a NOP with a reserved bit at byte 16; queue 28 made a doorbell queue. -/
def nopQ : State := ringed run0 0 64 [(0, 1, 0x7F)]
def fillQ : State := ringed run0 0 64 [(0, 1, 0x41)]
def badNop : State := ringed run0 0 64 [(0, 1, 0x7F), (16, 1, 1)]
def otherPart : State := ringed (withObjs run0 [(0x3100, 29, 0x71020000)]) 28 64 [(0, 1, 0x7F), (2, 1, 1)]

theorem test_descriptor_refusal_hypotheses : fillQ.answeredRun 0 = none ∧ fillQ.ringOpen 0 (descOf fillQ 0).index 1 ∧
    badNop.ringOpen 0 (descOf badNop 0).index 1 ∧ otherPart.ringOpen 28 (descOf otherPart 28).index 1 ∧ fillQ.front 0 = some (descOf fillQ 0) ∧
    fillQ.qCons 0 ∉ consumersOf (descOf fillQ 0).opc ∧ badNop.front 0 = some (descOf badNop 0) ∧
    badNop.qCons 0 ∈ consumersOf 0x7F ∧ (descOf badNop 0).ext = longOpcode 0x7F ∧
    (descOf badNop 0).ext = (descOf badNop 0).two ∧ (descOf badNop 0).reserved = some 16 ∧
    otherPart.front 28 = some (descOf otherPart 28) ∧ otherPart.qDoorbell 28 = true ∧
    (descOf otherPart 28).f 2 1 % 8 ≠ otherPart.qPart 28 ∧ run0.front 0 = none := by unfold State.ringOpen; decide +kernel

theorem test_descriptor_refusals : ok (exec (.fill 0) fillQ) (fun t => ended t 0 2 0x0402 0) = true ∧
    ok (exec (.nop 0) badNop) (fun t => ended t 0 2 0x0402 0 && decide (t.faults.log.map (·.det1) = [16])) = true ∧
    ok (exec (.nop 28) otherPart) (fun t => ended t 28 2 0x0403 0) = true ∧
    isNext (exec (.nop 0) fillQ) fillQ = true := by decide +kernel

/-- A FENCE in queue 0, and a SIGNAL of 5 to counter 127 in queue 1. -/
def fenceQ : State := ringed run0 0 64 [(0, 1, 0x70)]
def signalQ : State := ringed run0 0 64 [(0, 1, 0x71), (16, 2, 0x13F), (20, 4, 5)]

theorem test_fence_signal_nop_hypotheses : accepted nopQ 0 none = true ∧ accepted fenceQ 0 none = true ∧
    (fenceQ.queue 0).head = (fenceQ.queue 0).disp ∧ accepted signalQ 0 none = true ∧
    (descOf signalQ 0).f 16 2 / 64 % 4 = 0 ∧ (descOf signalQ 0).f 16 2 < 1024 ∧ signalQ.owns (signalQ.qPart 0) 2 127 = true ∧
    ((fenceQ.setQueue 0 { head := 1 }).queue 0).head ≠ ((fenceQ.setQueue 0 { head := 1 }).queue 0).disp := by decide +kernel

theorem test_fence_signal_nop : ok (exec (.nop 0) nopQ) (fun t => ended t 0 0 0 0) = true ∧
    ok (exec (.fence 0) fenceQ) (fun t => ended t 0 0 0 0) = true ∧
    ok (exec (.signal 0) signalQ) (fun t => ended t 0 0 0 0 && decide (t.counter 127 = 5)) = true := by decide +kernel

/-- A finished run of queue 0 with a completion ring, a done counter, a table image, summaries. -/
def worked (r : Run) : State := (withObjs run0 [(0x3102, 1, memKey 23 0x9000)]).setQueue 0 { tail := 1, disp := 1, run := some r }
def run1 : Run := { index := 0, two := false, opc := 0x7F, flags := 0, tag := 0x1234, part := 0, donec := 0x813F }

theorem test_descriptor_end_hypotheses : ((worked run1).queue 0).run = some run1 ∧ run1.phase = .finished ∧
    run1.flags.toNat.testBit 1 = false ∧
    (worked run1).ringDenied 0 ((worked run1).qCompletion 0 % 2 ^ 53) 16 true = none ∧ (worked run1).qCompletion 0 ≠ 0 ∧ run0.qCompletion 0 = 0 ∧
    (danto0.context 67).state = .ready ∧ (run0.context 67).state = .free := by decide +kernel

theorem test_descriptor_end : ok (exec (.descriptorEnd 0) (worked run1)) (fun t => decide ((t.queue 0).head = 1) &&
    decide ((t.queue 0).run = none) && decide (t.counter 127 = 1) &&
    decide (t.rdBytes (memKey 23 0x9000) 16 = [0, 0, 0, 0, 0x7F, 0, 0, 0, 0x34, 0x12, 0, 0, 0, 0, 0, 0])) = true := by
  decide +kernel

theorem test_descriptor_end_table : ok (exec (.descriptorEnd 0) (worked { run1 with table := some (3, [1, 2]) })) (fun t =>
    decide (tget t.tables 3 [] = [1, 2])) = true := by decide +kernel

theorem test_descriptor_end_summaries : ok (exec (.descriptorEnd 0)
    ((worked { run1 with summaries := some (67, 6, [1, 2, 3, 4]) }).setContext 67 ctxA)) (fun t =>
    decide ((t.context 67).mregs = [(0, 3), (1, 4), (6, 1), (7, 2)])) = true := by decide +kernel

/-! ### Movers, caches, engines -/

/-- A window over the whole of a region of this SX4, open to every master and partition. -/
def openWindow (region size : Nat) : Nat :=
  memKey region 0 + size * 2 ^ 64 + regionTarget region * 2 ^ 128 + 0x1FFFF * 2 ^ 143 + 0x3FFF * 2 ^ 162 + 0x3FFF * 2 ^ 178

/-- An SX4 in RUN with 1 GiB of DRAM and windows over regions 0, 1, 4 and 20. -/
def open0 : State := withObjs run0 [(0x3400, 5, 2 ^ 30), (0x3200, 1, openWindow 0 (2 ^ 30)),
  (0x3200, 2, openWindow 1 (2 ^ 26)), (0x3200, 3, openWindow 4 (2 ^ 22)), (0x3200, 4, openWindow 20 (2 ^ 18))]

/-- A COPY of one row of 64 bytes from Bed Store to DRAM, and a FILL of the last 8 bytes of a line there. -/
def copyQ : State := (ringed open0 16 64 [(0, 1, 0x40), (16, 8, memKey 4 0x1000), (24, 8, 0x40), (32, 4, 64), (44, 4, 1)])
  |>.wrBytes (memKey 4 0x103F) [0xAB]
def fillRow : State := ringed open0 16 64 [(0, 1, 0x41), (16, 8, 0x78), (24, 8, 0x1122334455667788), (32, 4, 8)]

theorem test_copy : copyQ.qCons 16 = 4 ∧ copyQ.matrix.ecc = [] ∧ accepted copyQ 16 (copyRanges (descOf copyQ 16)) = true ∧
    (copyQ.startRun 16 (descOf copyQ 16)).resolve { unitRq 8 0 false with addr := memKey 4 0x1000, len := 64 } =
      .ok (.mem (memKey 4 0x1000)) ∧
    (copyQ.startRun 16 (descOf copyQ 16)).resolve { unitRq 8 0 true with addr := 0x40, len := 64 } = .ok (.mem 0x40) ∧
    ok (exec (.copy 16) copyQ) (fun t => ended t 16 0 0 64 && decide (t.rd8 0x7F = 0xAB)) = true := by decide +kernel

theorem test_fill : accepted fillRow 16 (fillRanges (descOf fillRow 16)) = true ∧ (0x78 : Nat) % 64 + 8 ≤ 64 ∧
    (fillRow.startRun 16 (descOf fillRow 16)).resolve { unitRq 8 0 true with addr := 0x78, len := 8 } = .ok (.mem 0x78) ∧
    ok (exec (.fill 16) fillRow) (fun t => ended t 16 0 0 8 && decide (t.rdNat 0x78 8 = 0x1122334455667788)) = true := by
  decide +kernel

/-- The last 64 bytes of bed 0's operand cache filled from its Bed Store, and evicted. -/
def cacheFillQ : State := (ringed open0 8 64 [(0, 1, 0x42), (16, 8, memKey 4 0x1000), (24, 4, 0x3FFC0), (28, 4, 64)])
  |>.wrBytes (memKey 4 0x1000) [0xAB]
def evictQ : State := (ringed open0 8 64 [(0, 1, 0x43), (16, 4, 0x3FFC0), (20, 4, 64)]).wrBytes (memKey 16 0x3FFC0) [0xAB]

theorem test_cache_hypotheses : cacheFillQ.qCons 8 = 3 ∧ accepted cacheFillQ 8 none = true ∧ accepted evictQ 8 none = true ∧
    (cacheFillQ.startRun 8 (descOf cacheFillQ 8)).tagBound 8 (descOf cacheFillQ 8) = true ∧
    (evictQ.startRun 8 (descOf evictQ 8)).tagBound 8 (descOf evictQ 8) = true ∧
    (cacheFillQ.startRun 8 (descOf cacheFillQ 8)).resolve { unitRq 4 0 false with addr := memKey 4 0x1000, len := 64 } =
      .ok (.mem (memKey 4 0x1000)) ∧ cacheFillQ.isOn 3 = true ∧ cacheFillQ.scrubs = [] ∧
    cacheFillQ.owns (cacheFillQ.qPart 8) 5 (0x3FFC0 / 2 ^ 16) = true := by decide +kernel

theorem test_cache : ok (exec (.cacheFill 8) cacheFillQ) (fun t => ended t 8 0 0 0 &&
      decide (t.rd8 (memKey 16 0x3FFC0) = 0xAB)) = true ∧
    ok (exec (.cacheEvict 8) evictQ) (fun t => ended t 8 0 0 0 && decide (t.mem.length = evictQ.mem.length - 1)) = true := by
  decide +kernel

/-- The CRC-32C of "123456789" is 0xE306_9283. -/
theorem test_crc : crc32c [0x31, 0x32, 0x33, 0x34, 0x35, 0x36, 0x37, 0x38, 0x39] = 0xE3069283 := by decide +kernel

/-- A function table with 64 segments of width 1 from 0: p(u) = 2 in segment 0, else 0. -/
def tableBody : List Byte := record 1600 [(0, 2, 1), (2, 2, 64), (12, 4, 0x42800000), (64, 4, 0x40000000)]
def tableImg : List Byte :=
  patch tableBody 60 (natLe (crc32c (slice tableBody 0 60 ++ slice tableBody 64 1536)) 4)

/-- A TABLE_LOAD of it into slot 7 of bed 0. -/
def tableQ : State := (ringed open0 8 64 [(0, 1, 0x50), (16, 1, 7), (24, 8, memKey 4 0x1000), (32, 4, 1600)])
  |>.wrBytes (memKey 4 0x1000) tableImg

set_option maxRecDepth 100000 in
theorem test_table_hypotheses : accepted tableQ 8 none = true ∧ tableQ.tablesInUse 0 = false ∧ (tableQ.startRun 8 (descOf tableQ 8)).tagBound 8 (descOf tableQ 8) = true ∧
    tableQ.owns (tableQ.qPart 8) 0xA 7 = true ∧
    (descOf tableQ 8).f 32 4 = 1600 ∧ tableQ.rdBytes (memKey 4 0x1000) 1600 = tableImg ∧
    bedOpen (tableQ.startRun 8 (descOf tableQ 8)) 0 0 = true := by decide +kernel

theorem test_table_opens : (tableQ.startRun 8 (descOf tableQ 8)).opens 4 0 false (memKey 4 0x1000) 1600 :=
  opens_bed _ 0 0 false 0x1000 1600 test_table_hypotheses.2.2.2.2.2.2 (by decide)

set_option maxRecDepth 100000 in
theorem test_table_ok : tableOk tableImg = true := by decide +kernel

/-- Zeros are no table image. -/
theorem test_bad_table : ok (exec (.tableLoad 8) (ringed open0 8 64 [(0, 1, 0x50), (16, 1, 7), (24, 8, memKey 4 0x1000),
    (32, 4, 1600)])) (fun t => !ended t 8 0 0 0 && decide (t.tables = [])) = true := by decide +kernel

theorem test_table_value : tablePoly tableImg 0x3F000000 = 0x40000000 ∧ tablePoly tableImg 0x3F800000 = 0 := by
  decide +kernel

/-- The stick of the forward update (worked case of The Element Engine): `FMA.I` o0 := a × b × 2^−30 + c. -/
def elementQ : State := (ringed open0 8 128 [(0, 1, 0x20), (1, 1, 1), (16, 4, 2), (20, 1, 1), (24, 4, 0x30333),
    (32, 8, memKey 4 0x800), (40, 8, memKey 4 0x1000), (48, 8, memKey 4 0x1100), (56, 8, memKey 4 0x1200),
    (72, 8, memKey 4 0x1300)])
  |>.wrBytes (memKey 4 0x800) (natLe 0x8484255E00000000 8)
  |>.wrBytes (memKey 4 0x1000) (natLe 0x2000000020000000 8)
  |>.wrBytes (memKey 4 0x1100) (natLe (1001 + 507 * 2 ^ 32) 8)
  |>.wrBytes (memKey 4 0x1200) (natLe (7 + 7 * 2 ^ 32) 8)

/-- The state in which the ELEMENT works, its stick read, and its groups done. -/
def elemU : State := elementQ.startRun 8 (descOf elementQ 8)
def elemStick : State × Except Stopped (List StickOp) := (elemU.working 8).readStick 0 0 (memKey 4 0x800) 1
def elemOps : List TypedOp :=
  match elemStick.2 with
  | .ok l => ((elemStick.1.elementEnv 0 (descOf elementQ 8)).check {} 0 l).toOption.getD []
  | .error _ => []
def elemDone : State × Unit × Option (Stopped × Nat) := elemStick.1.overGroups
  (fun s _ g => s.elementGroup 0 0 (descOf elementQ 8) none elemOps g) () (List.range 1)

theorem test_element_hypotheses : accepted elementQ 8 (elemU.elementRanges (descOf elementQ 8)) = true ∧
    (elemU.working 8).rowsAndLength 8 (descOf elementQ 8) 2 = .ok none ∧ elemStick.2.isOk = true ∧ elemOps.length = 1 ∧
    elemStick.1.ownsTables 0 0 (elemStick.2.toOption.getD []) = true ∧
    elemStick.1.elementCacheOk (descOf elementQ 8) 2 (elemStick.1.rowLen 8 (descOf elementQ 8) 2) = true ∧
    elemDone.2.2 = none ∧ unasked elemDone.1 8 = true := by decide +kernel

/-- Its operands lie in its bed's own Bed Store. -/
theorem test_element_places : let d := descOf elementQ 8
    bedOpen elemU (elemU.qBed 8) (elemU.qWho 8) = true ∧ elementQ.matrix.ecc = [] ∧ d.tag = 0 ∧ d.f 16 4 = 2 ∧
    (d.ins.all fun x => streamIn (elemU.qBed 8) x.addr x.code 2) = true ∧
    (d.outs.all fun x => streamIn (elemU.qBed 8) x.addr x.code 2) = true ∧ d.masked = false ∧
    inBed (elemU.qBed 8) (d.f 32 8) (8 * d.f 20 1) = true ∧
    elemU.ownsTables (elemU.qPart 8) (elemU.qBed 8) (elemU.stickAt (d.f 32 8) (d.f 20 1)) = true ∧
    (elemU.elementEnv (elemU.qBed 8) d).check {} 0 (elemU.stickAt (d.f 32 8) (d.f 20 1)) = .ok elemOps ∧
    elemU.elementCacheOk d 2 0 = true := by decide +kernel

theorem test_element_open : Accepted elementQ 8 (descOf elementQ 8) (elemU.elementRanges (descOf elementQ 8)) ∧
    (∀ x ∈ (descOf elementQ 8).ins, elemU.streamOpen 8 false x.addr x.code 2) ∧
    (∀ x ∈ (descOf elementQ 8).outs, elemU.streamOpen 8 true x.addr x.code 2) ∧
    elemU.opens (4 + elemU.qBed 8) (elemU.qWho 8) false ((descOf elementQ 8).f 32 8) (8 * (descOf elementQ 8).f 20 1) := by
  have h := test_element_places
  refine ⟨accepted_meets _ _ _ test_element_hypotheses.1, fun x hx => ?_, fun x hx => ?_, ?_⟩
  · exact stream_open _ _ _ _ _ _ h.1 (List.all_eq_true.mp h.2.2.2.2.1 x hx)
  · exact stream_open _ _ _ _ _ _ h.1 (List.all_eq_true.mp h.2.2.2.2.2.1 x hx)
  · exact opens_in_bed _ _ _ _ _ _ h.1 h.2.2.2.2.2.2.2.1

theorem test_element : ok (exec (.element 8) elementQ) (fun t => ended t 8 0 0 2 &&
    decide (t.rdNat (memKey 4 0x1300) 8 = 507 + 261 * 2 ^ 32)) = true := by decide +kernel

/-- The first elements of Table EL-11 (0, 1, 2 and 17) in S32, with `KIND` and flags as given. -/
def scanQ (kind seg flags : Nat) : State := (ringed open0 8 64 [(0, 1, 0x22), (16, 4, 4), (20, 1, kind), (21, 1, seg),
    (22, 1, 3), (24, 8, memKey 4 (if kind = 2 then 0x1000 else 0x1100)), (32, 8, if kind = 2 then memKey 4 0x1100 else 0),
    (40, 8, if seg = 1 then memKey 4 0x1200 else 0), (48, 8, memKey 4 0x1300)])
  |>.wrBytes (memKey 4 0x1000) (natLe 0x20000000200000002000000020000000 16)
  |>.wrBytes (memKey 4 0x1100) (natLe 1001 4 ++ natLe 7 4 ++ natLe 7 4 ++ natLe 40 4)
  |>.wrBytes (memKey 4 0x1200) (natLe flags 1)

/-- The hypotheses about a SCAN without a batch, each result computed. -/
def scanMeets (s : State) (kind : Nat) : Bool :=
  let d := descOf s 8
  let v := (s.startRun 8 d).working 8
  let c := v.eachOf (fun s r => s.carryIn 0 0 d none r) (carryRows d none)
  match c.2 with
  | .error _ => false
  | .ok carries =>
    let x := c.1.overGroups (fun s x g => s.scanGroup 0 0 d none carries x g) {} (List.range 1)
    let o := x.1.carryOut 0 0 d none x.2.1.lasts
    accepted s 8 ((s.startRun 8 d).scanRanges d) && decide (d.kind = kind) && decide (v.rowsAndLength 8 d 4 = .ok none) &&
      v.scanCacheOk d 4 (v.rowLen 8 d 4) (carryRows d none).length && x.2.2.isNone && o.2.isOk && unasked o.1 8

theorem test_scan_hypotheses : scanMeets (scanQ 0 0 0) 0 = true ∧ scanMeets (scanQ 1 1 9) 1 = true ∧
    scanMeets (scanQ 2 1 9) 2 = true := by decide +kernel

/-- Its operands lie in its bed's own Bed Store. -/
def scanPlaces (s : State) (kind : Nat) : Bool :=
  let d := descOf s 8
  let u := s.startRun 8 d
  let b := u.qBed 8
  bedOpen u b (u.qWho 8) && decide (s.matrix.ecc = []) && decide (d.tag = 0) && decide (d.f 16 4 = 4) &&
    decide (d.kind = kind) && [d.scanA, d.scanB, d.scanOut].all (fun x => streamIn b x.addr x.code 4) &&
    (decide (d.seg ≠ 1) || inBed b (d.f 40 8) 1) && decide (d.carry = 0) && u.scanCacheOk d 4 0 1

theorem test_scan_places : scanPlaces (scanQ 0 0 0) 0 = true ∧ scanPlaces (scanQ 1 1 9) 1 = true ∧
    scanPlaces (scanQ 2 1 9) 2 = true := by decide +kernel

theorem scan_open (s : State) (kind : Nat) (h : scanPlaces s kind = true) :
    let d := descOf s 8
    let u := s.startRun 8 d
    (∀ x ∈ [d.scanA, d.scanB], u.streamOpen 8 false x.addr x.code 4) ∧
    u.streamOpen 8 true d.scanOut.addr d.scanOut.code 4 ∧
    (d.seg = 1 → u.opens (4 + u.qBed 8) (u.qWho 8) false (d.f 40 8) ((4 + 7) / 8)) ∧ d.carry = 0 := by
  simp only [scanPlaces, Bool.and_eq_true, List.all_eq_true, Bool.or_eq_true, decide_eq_true_eq] at h
  obtain ⟨⟨⟨⟨⟨⟨⟨⟨hb, -⟩, -⟩, -⟩, -⟩, hp⟩, hs⟩, hc⟩, -⟩ := h
  refine ⟨fun x hx => stream_open _ _ _ _ _ _ hb (hp x ?_), stream_open _ _ _ _ _ _ hb (hp _ (by simp)), fun h1 => ?_, hc⟩
  · simp only [List.mem_cons, List.not_mem_nil, or_false] at hx ⊢
    tauto
  · exact opens_in_bed _ _ _ _ _ _ hb (hs.resolve_left (by simpa using h1))

theorem test_scan_open : ∀ x ∈ [(scanQ 0 0 0, 0), (scanQ 1 1 9, 1), (scanQ 2 1 9, 2)], scanPlaces x.1 x.2 = true := by
  intro x hx
  simp only [List.mem_cons, List.not_mem_nil, or_false] at hx
  rcases hx with rfl | rfl | rfl
  · exact test_scan_places.1
  · exact test_scan_places.2.1
  · exact test_scan_places.2.2

/-- Table EL-11. -/
theorem test_scan_affine : ok (exec (.scanAffine 8) (scanQ 2 1 9)) (fun t => ended t 8 0 0 4 &&
    decide ([0, 4, 8, 12].map (fun o => t.rdNat (memKey 4 (0x1300 + o)) 4) = [1001, 507, 261, 40])) = true := by
  decide +kernel

theorem test_scan_sums : ok (exec (.scanPrefixSum 8) (scanQ 0 0 0)) (fun t =>
      decide (t.rdNat (memKey 4 0x130C) 4 = 1055)) = true ∧
    ok (exec (.scanSegmentedSum 8) (scanQ 1 1 9)) (fun t =>
      decide (t.rdNat (memKey 4 0x1308) 4 = 1015) && decide (t.rdNat (memKey 4 0x130C) 4 = 40)) = true := by decide +kernel

/-- A REDUCE of one row of four elements with every statistic and its summaries, of S32 or of F32 for a soft maximum. -/
def reduceQ (smax : Nat) : State := (ringed open0 8 64 [(0, 1, 0x21), (16, 4, 4), (20, 1, 0x3F),
    (21, 1, if smax = 0 then 3 else 4), (22, 1, 0x84), (23, 1, smax), (24, 2, 67), (32, 8, memKey 4 0x1100),
    (48, 8, memKey 4 0x1400), (56, 4, 1)])
  |>.wrBytes (memKey 4 0x1100) (if smax = 0 then natLe 3 4 ++ natLe 9 4 ++ natLe 9 4 ++ natLe 0xFFFFFFFE 4
      else natLe 0x3F8000003F8000003F8000003F800000 16)

def reduceMeets (s : State) (smax : Nat) : Bool :=
  let d := descOf s 8
  let v := (s.startRun 8 d).working 8
  let m := v.readMask 0 0 d
  match m.2 with
  | .error _ => false
  | .ok mask =>
    let x := m.1.overGroups (fun s x r => s.reduceRow 8 d mask x r) {} (List.range 1)
    accepted s 8 ((s.startRun 8 d).reduceRanges d) && decide (d.smax = smax) && reduceCacheOk d && d.sums &&
      decide (v.rowsAndLength 8 d 4 = .ok none) && x.2.2.isNone && unasked x.1 8

theorem test_reduce_hypotheses : reduceMeets (reduceQ 0) 0 = true := by decide +kernel

theorem test_soft_max_hypotheses : reduceMeets (reduceQ 1) 1 = true ∧ reduceMeets (reduceQ 2) 2 = true := by
  decide +kernel

/-- Its operands lie in its bed's own Bed Store. -/
def reducePlaces (s : State) (smax : Nat) : Bool :=
  let d := descOf s 8
  let u := s.startRun 8 d
  let b := u.qBed 8
  bedOpen u b (u.qWho 8) && decide (s.matrix.ecc = []) && decide (d.tag = 0) && decide (d.f 16 4 = 4) &&
    decide (d.smax = smax) && decide (d.f 56 4 = 1) && streamIn b (d.f 32 8 + 0 * d.f 60 4) d.ifmt 4 &&
    inBed b (d.f 48 8 + 128 * 0) 128 && decide (d.f 40 8 = 0) && reduceCacheOk d

theorem test_reduce_places : reducePlaces (reduceQ 0) 0 = true ∧ reducePlaces (reduceQ 1) 1 = true ∧
    reducePlaces (reduceQ 2) 2 = true := by decide +kernel

theorem reduce_open (s : State) (smax : Nat) (h : reducePlaces s smax = true) :
    let d := descOf s 8
    let u := s.startRun 8 d
    ∀ r, r < d.f 56 4 → (∀ wr, u.streamOpen 8 wr (d.f 32 8 + r * d.f 60 4) d.ifmt 4) ∧
      u.opens (4 + u.qBed 8) (u.qWho 8) true (d.f 48 8 + 128 * r) 128 := by
  simp only [reducePlaces, Bool.and_eq_true, decide_eq_true_eq] at h
  obtain ⟨⟨⟨⟨⟨⟨⟨⟨⟨hb, -⟩, -⟩, -⟩, -⟩, h1⟩, hi⟩, ho⟩, -⟩, -⟩ := h
  intro d u r hr
  obtain rfl : r = 0 := by have : d.f 56 4 = 1 := h1; omega
  exact ⟨fun wr => stream_open _ _ _ _ _ _ hb hi, opens_in_bed _ _ _ _ _ _ hb ho⟩

/-- Sum 19, largest 9 first at 1. -/
theorem test_reduce : ok (exec (.reduce 8) (reduceQ 0)) (fun t => ended t 8 0 0 4 &&
    decide (((t.queue 8).run.bind (·.summaries)).map (fun x => (x.1, x.2.1, x.2.2.drop 2)) =
      some (67, 4, [19 * 65536, 0x100000009]))) = true := by decide +kernel

/-- A MATMUL of 8 rows, 512 × 512, weights resident, activation in bed 0's own Bed Store, in raw mode or plain: element
(0, 0) is 3 × 5. -/
def matmulQ (mode m : Nat) : State := (ringed open0 0 128 [(0, 1, 0x10), (1, 1, 1), (3, 1, 1), (16, 4, m), (20, 4, 512),
    (24, 4, 512), (29, 1, 1), (30, 1, mode), (32, 8, memKey 4 0), (40, 8, memKey 8 0),
    (48, 8, if mode = 2 then 0 else memKey 4 0x100000), (57, 1, 8), (58, 2, 32),
    (64, 8, if mode = 2 then 0 else memKey 4 0x10000), (72, 8, if mode = 2 then 0 else memKey 4 0x20000),
    (80, 4, 0x300000), (84, 4, 0x40000), (96, 8, if mode = 0 then 0 else memKey 4 0x100000), (104, 1, 3)])
  |>.wrBytes (memKey 4 0) [3]
  |>.wrBytes (memKey 8 0) [5]
  |>.wrBytes (memKey 4 0x10000) (natLe 0x8F84000000000000 8)

/-- The hypotheses about a MATMUL that fails check 2 of Table AI-5 or a later one. -/
theorem test_matmul_refused : accepted (matmulQ 2 7) 0 (((matmulQ 2 7).startRun 0 (descOf (matmulQ 2 7) 0)).matmulRanges
      (descOf (matmulQ 2 7) 0)) = true ∧
    ((matmulQ 2 7).startRun 0 (descOf (matmulQ 2 7) 0)).issueCheck (descOf (matmulQ 2 7) 0) = some 0x0501 ∧
    ok (exec (.matmulRaw 0) (matmulQ 2 7)) (fun t => ended t 0 2 0x0501 0) = true := by decide +kernel

/-- A plain MATMUL over the first of two k-tiles, which opens a chain, as it runs its tile. -/
def chainQ : State := (matmulQ 0 8).wrBytes (memKey 23 0x8014) (natLe 1024 4) |>.wrBytes (memKey 23 0x805C) [1]
def chainD : Desc := descOf chainQ 0
def chainU0 : State := chainQ.startRun 0 chainD
def chainU : State := chainU0.working 0
def chainU1 : State := chainU.mapRun 0 fun r => { r with
  beds := chainD.beds, uses := chainU.matmulDomains chainD (chainU.qBed 0), held := heldSpans chainD }
def chainStick : State × Except Stopped (List StickOp) := chainU1.readStickLast 0 0 [] 32 (memKey 4 0x10000)
def chainWords : List StickOp := chainStick.2.toOption.getD []
def chainOps : List TypedOp := ((chainStick.1.postEnv 0 chainD).check {} 0 chainWords).toOption.getD []
def chainU2 : State := chainStick.1.mapRun 0 fun r => { r with slots := (stickSlots chainOps).map (8 * 0 + ·) }

theorem test_matmul_accepted : accepted chainQ 0 (chainU0.matmulRanges chainD) = true ∧ chainD.raw = false ∧
    chainD.combine = false ∧ chainU2.stagedBeds chainD = [] ∧ chainD.chainRole = .opens ∧ chainD.finishes = false := by
  decide +kernel

theorem test_matmul_runs : chainU.matmulWork 0 chainD = chainU2.matmulRun 0 chainD none chainOps 0 := by
  have h1 : chainD.combine = false := by decide +kernel
  have h2 : chainU.issueCheck chainD = none := by decide +kernel
  have h3 : chainD.tag = 0 := by decide +kernel
  have h4 : chainD.raw = false := by decide +kernel
  have h5 : chainStick.2 = .ok chainWords := by decide +kernel
  have h6 : (chainStick.1.postEnv 0 chainD).check {} 0 chainWords = .ok chainOps := by decide +kernel
  have h10 : chainStick.1.ownsTables (chainU.qPart 0) 0 chainWords = true := by decide +kernel
  have h7 : chainU1.readStickLast (chainU1.qBed 0) (chainU1.qWho 0) [] 32 (chainD.f 64 8) = chainStick := by
    have e1 : chainU1.qBed 0 = 0 := by decide +kernel
    have e2 : chainU1.qWho 0 = 0 := by decide +kernel
    have e3 : chainD.f 64 8 = memKey 4 0x10000 := by decide +kernel
    rw [e1, e2, e3, chainStick]
  have h8 : chainU1.qBed 0 = 0 := by decide +kernel
  have h9 : chainStick = (chainStick.1, .ok chainWords) := by rw [← h5]
  unfold State.matmulWork State.matmulIssue
  simp only [h1, h2, Bool.not_false, if_true]
  change chainU1.matmulStick 0 chainD 0 = _
  unfold State.matmulStick
  simp only [h3, h4, ne_eq, not_true_eq_false, false_and, if_false, if_true, Bool.false_eq_true]
  rw [h7, h9]
  simp only [h8]
  rw [show chainU1.qPart 0 = chainU.qPart 0 by decide +kernel, h10]
  simp only [h6, Bool.not_true, Bool.false_eq_true, if_false]
  rfl

/-- The state s with memory m: what stands in front of a bed's own memories does not depend on memory. -/
def withMem (s : State) (m : List Host.Cell) : State := { s with mem := m }

theorem withMem_ecc (s : State) (m : List Host.Cell) (e : s.matrix.ecc = []) (who : BitVec 8) (k len : Nat) :
    (withMem s m).eccCheck who k len = (withMem s m, true) := by
  have e' : (withMem s m).matrix.ecc = [] := e
  unfold State.eccCheck State.eccRead
  simp [e']

/-- The pieces of a burst lie at its bed's own port. -/
def ownBurst (s : State) (r : Rq) (l : List (Nat × Nat)) : Bool :=
  l.all fun p => decide ((s.portOf r.master p.1).target ≠ 7) && ownPort r.master (bits p.1 52 48)

theorem withMem_burst (s : State) (m : List Host.Cell) (r : Rq) (l : List (Nat × Nat)) (h : ownBurst s r l = true) :
    (withMem s m).unitBurst r l = withMem s m := by
  induction l with
  | nil => rfl
  | cons p q ih =>
    simp only [ownBurst, List.all_cons, Bool.and_eq_true, decide_eq_true_eq] at h
    have h1 : ((withMem s m).portOf r.master p.1).target ≠ 7 := h.1.1
    unfold State.unitBurst
    simp only [h1, h.1.2, ne_eq, not_false_eq_true, decide_true, Bool.and_self, Bool.or_true, if_true]
    exact ih h.2

/-- A piece of a read by its bed's own port, free of errors and denials. -/
def ownPiece (s : State) (r : Rq) : Bool :=
  ownPort r.master (bits r.addr 52 48) && decide (bits r.addr 47 0 < regionSize (bits r.addr 52 48)) &&
    decide (s.matrix.ecc = []) && decide (s.resolve r = .ok (.mem (memKey (bits r.addr 52 48) (bits r.addr 47 0)))) &&
    decide (2 ^ 48 ≤ memKey (bits r.addr 52 48) (bits r.addr 47 0))

theorem withMem_piece (s : State) (m : List Host.Cell) (r : Rq) (h : ownPiece s r = true) :
    ∃ l, (withMem s m).readPiece r = (withMem s m, .ok l) := by
  simp only [ownPiece, Bool.and_eq_true, decide_eq_true_eq] at h
  obtain ⟨⟨⟨⟨h1, h2⟩, e⟩, h3⟩, hk⟩ := h
  have h4 : (withMem s m).resolve r = .ok (.mem (memKey (bits r.addr 52 48) (bits r.addr 47 0))) := by
    rw [← h3]
    simp only [State.resolve, h1, h2, decide_true, Bool.and_self, if_true]
    rfl
  have hk' : (withMem s m).headerKey r = none := by
    unfold State.headerKey
    rw [if_neg]
    intro hx
    unfold ownPort at h1
    simp only [Bool.and_eq_true, Bool.or_eq_true, decide_eq_true_eq] at h1
    omega
  refine ⟨(withMem s m).rdBytes (memKey (bits r.addr 52 48) (bits r.addr 47 0)) r.len, ?_⟩
  have e' : (withMem s m).matrix.ecc = [] := e
  have h5 : (withMem s m).touchKey r.part (memKey (bits r.addr 52 48) (bits r.addr 47 0)) false = withMem s m := by
    unfold State.touchKey
    rw [if_neg (Nat.not_lt.mpr hk)]
  unfold State.readPiece State.place
  rw [h4]
  simp [hk', State.fetchKey, h5, withMem_ecc s m e]

/-- All pieces of a read are. -/
def ownPieces (s : State) (r : Rq) : Nat → Nat → Nat → Bool
  | 0, _, _ => true
  | fuel + 1, addr, len =>
    decide (len = 0) || (ownPiece s { r with addr, len := pieceLen addr len } &&
      ownPieces s r fuel (addr + pieceLen addr len) (len - pieceLen addr len))

theorem withMem_pieces (s : State) (m : List Host.Cell) (r : Rq) (n : Nat) : ∀ acc addr len,
    ownPieces s r n addr len = true → ∃ l, (withMem s m).readPieces r acc n addr len = (withMem s m, .ok l) := by
  induction n with
  | zero => exact fun acc _ _ _ => ⟨acc, rfl⟩
  | succ n ih =>
    intro acc addr len h
    unfold State.readPieces
    simp only [ownPieces, Bool.or_eq_true, decide_eq_true_eq, Bool.and_eq_true] at h
    by_cases h0 : len = 0
    · exact ⟨acc, by simp [h0]⟩
    · obtain ⟨l, hl⟩ := withMem_piece s m _ ((h.resolve_left h0).1)
      obtain ⟨l2, h2⟩ := ih (acc ++ l) _ _ ((h.resolve_left h0).2)
      exact ⟨l2, by simp only [h0, if_false, hl, h2]⟩

theorem withMem_each {α β : Type} (s : State) (f : State → α → State × Except Stopped β) (l : List α)
    (h : ∀ m, ∀ a ∈ l, ∃ m' b, f (withMem s m) a = (withMem s m', .ok b)) :
    ∀ m, ∃ m' bs, State.eachOf f (withMem s m) l = (withMem s m', .ok bs) := by
  induction l with
  | nil => exact fun m => ⟨m, [], rfl⟩
  | cons a r ih =>
    intro m
    obtain ⟨m1, b, h1⟩ := h m a (by simp)
    obtain ⟨m2, bs, h2⟩ := ih (fun m x hx => h m x (by simp [hx])) m1
    exact ⟨m2, b :: bs, by simp [State.eachOf, h1, h2]⟩

theorem withMem_acc (s : State) (e : s.matrix.ecc = []) (m : List Host.Cell) (b x r : Nat) (vs : List Int) :
    ∃ m', (withMem s m).writeAcc b x r vs = withMem s m' := by
  have w : ∀ (l : List Byte) (m : List Host.Cell) (k : Nat), ∃ m', (withMem s m).wrBytes k l = withMem s m' := by
    intro l
    induction l with
    | nil => exact fun m k => ⟨m, rfl⟩
    | cons b r ih => exact fun m k => ih (tset m k b unlistedByte) (k + 1)
  obtain ⟨m', h⟩ := w (vs.flatMap fun v => natLe (BitVec.ofInt 48 v).toNat 6) m (accKey b x r)
  refine ⟨m', ?_⟩
  have e' : (withMem s m').matrix.ecc = [] := e
  unfold State.writeAcc
  rw [h]
  simp [State.eccClear, e']

/-- The one tile of the chain's first member. -/
def tile0 : Tile := { index := 0, group := 0, row := 0, rows := 8 }

/-- What the walk below asks of the descriptor, and of the state. -/
def tileD (d : Desc) : Prop := d.tiles = [tile0] ∧ d.used tile0 = [(0, 0)] ∧ d.beds = [0] ∧ d.bedRange 0 = (0, 1) ∧
  d.passes = 1 ∧ d.resident = true ∧ d.k = 1024 ∧ d.actSize = 2 ∧ d.f 32 8 = memKey 4 0 ∧ bits d.wsrc 47 0 = 0 ∧
  d.raw = false ∧ d.finishes = false ∧ d.combine = false ∧ d.chainRole = .opens ∧ chainOverflow d tile0 = false ∧
  d.tileRow tile0 = 0

def tileS (s : State) : Prop := s.qBed 0 = 0 ∧ s.qWho 0 = 0 ∧ s.matrix.ecc = [] ∧ (∀ r ∈ List.range 8,
    ownPieces s (unitRq 4 0 false) 18 ((memKey 4 0 + (0 + r) * 1024 * 2 + 0 * 1024) % 2 ^ 64) 1024 = true ∧
    ownBurst s (unitRq 4 0 false) (pieces 3 ((memKey 4 0 + (0 + r) * 1024 * 2 + 0 * 1024) % 2 ^ 64) 1024) = true) ∧
  s.accOpen 0 0 0 0 = (s, .ok ()) ∧
  s.portDenies { unitRq 4 0 false with addr := localAddr 8 (0 * 2 ^ 20 + 0), len := 2 ^ 18 } 8 (0 * 2 ^ 20 + 0) = none

theorem withMem_keeps (s : State) (m : List Host.Cell) (r : Rq) (g o q : Nat) (d : Desc) :
    (withMem s m).matrix.ecc = s.matrix.ecc ∧ (withMem s m).portDenies r g o = s.portDenies r g o ∧
    (withMem s m).stagedBeds d = s.stagedBeds d ∧ (withMem s m).queue q = s.queue q ∧ withMem s s.mem = s :=
  ⟨rfl, rfl, rfl, rfl, rfl⟩

theorem withMem_unasked (s : State) (m : List Host.Cell) (q : QueueId) (h : Unasked s q) : Unasked (withMem s m) q := h

theorem unasked_meets (u : State) (q : QueueId) (h : unasked u q = true) : Unasked u q := by
  simp only [unasked, Bool.and_eq_true, Option.isNone_iff_eq_none] at h
  exact h

/-- The tile's weights are there, whatever memory holds. -/
theorem withMem_weights (s : State) (d : Desc) (m : List Host.Cell) (hr : d.resident = true) (hw : bits d.wsrc 47 0 = 0)
    (hp : d.passes = 1) (he : s.matrix.ecc = [])
    (hd : s.portDenies { unitRq 4 0 false with addr := localAddr 8 (0 * 2 ^ 20 + 0), len := 2 ^ 18 } 8 (0 * 2 ^ 20 + 0) =
      none) : ∃ l, (withMem s m).weightTile 0 0 d 0 1 0 tile0 (0, 0) 0 0 = (withMem s m, .ok l) := by
  have he' := (withMem_keeps s m (unitRq 4 0 false) 0 0 0 d).1.trans he
  have hd' := (withMem_keeps s m { unitRq 4 0 false with addr := localAddr 8 (0 * 2 ^ 20 + 0), len := 2 ^ 18 } 8
    (0 * 2 ^ 20 + 0) 0 d).2.1.trans hd
  have ht : ∀ p, (withMem s m).touchKey p (bankKey 0 0 0) false = withMem s m := by
    intro p
    unfold State.touchKey
    rw [if_neg (by decide +kernel)]
  refine ⟨(withMem s m).rdBytes (bankKey 0 0 0) (2 ^ 18), ?_⟩
  have hb : (withMem s m).bankTile 0 0 0 0 = (withMem s m, .ok ((withMem s m).rdBytes (bankKey 0 0 0) (2 ^ 18))) := by
    unfold State.bankTile
    simp only [Nat.add_zero] at hd' ⊢
    rw [hd']
    simp [State.fetchKey, ht, withMem_ecc s m he, Except.mapError]
  unfold State.weightTile
  simp only [hr, hw, hp, if_true, tile0, Nat.sub_self, Nat.zero_mul, Nat.add_zero, Nat.zero_add]
  rw [if_neg (by decide), hb]

theorem withMem_act (s : State) (d : Desc) (hD : tileD d) (hS : tileS s) : ∀ m, ∀ r ∈ List.range 8,
    ∃ l, (withMem s m).readAct 0 0 d none 0 (0 + r) = (withMem s m, .ok l) := by
  obtain ⟨ht, hu, hb, hg, hp, hr, hk, hz, ha, hw, hraw, hf, hc, hro, hov, htr⟩ := hD
  obtain ⟨hq, hq2, he, hrd, hao, hd⟩ := hS
  intro m r hr'
  obtain ⟨as, h2⟩ := withMem_pieces s m (unitRq 4 0 false) 18 [] _ _ (hrd r hr').1
  refine ⟨signedList 2 512 as, ?_⟩
  unfold State.readAct State.actSpot
  simp only [ha, hk, hz, State.bedRead, State.mread]
  unfold State.unitTransfer
  rw [show 512 * 2 / 64 + 2 = 18 from rfl, show 512 * 2 = 1024 from rfl, show 4 + 0 = 4 from rfl,
    show 1024 / 1024 + 2 = 3 from rfl, withMem_burst s m _ _ (hrd r hr').2]
  rw [h2]
  simp only [Except.mapError, Except.map]

theorem withMem_dwell (s : State) (d : Desc) (hD : tileD d) (hS : tileS s) (m : List Host.Cell) :
    ∃ m', (withMem s m).dwell 0 0 d none 0 1 true 0 tile0 0 0 = (withMem s m', .ok ()) := by
  have act := withMem_act s d hD hS
  obtain ⟨ht, hu, hb, hg, hp, hr, hk, hz, ha, hw, hraw, hf, hc, hro, hov, htr⟩ := hD
  obtain ⟨hq, hq2, he, hrd, hao, hd⟩ := hS
  obtain ⟨l, hl⟩ := withMem_weights s d m hr hw hp he hd
  have key : ∀ f : State → Nat → State × Except Stopped Unit,
      (∀ m, ∀ r ∈ List.range tile0.rows, ∃ m' b, f (withMem s m) r = (withMem s m', .ok b)) →
      ∃ m', (match State.eachOf f (withMem s m) (List.range tile0.rows) with
        | (s, .error e) => (s, .error e)
        | (s, .ok _) => (s, .ok ())) = (withMem s m', (.ok () : Except Stopped Unit)) := by
    intro f hf
    obtain ⟨m', bs, h⟩ := withMem_each s f _ hf m
    exact ⟨m', by rw [h]⟩
  unfold State.dwell
  simp only [hu, State.eachOf, hl]
  generalize rowsOf512 512 l = ws
  refine key _ fun m r hr' => ?_
  obtain ⟨as, h3⟩ := act m r hr'
  obtain ⟨m', h4⟩ := withMem_acc s he m 0 0 (d.tileRow tile0 + r) (dotRow d.w16 0 (List.replicate 512 0) as ws)
  refine ⟨m', (), ?_⟩
  have h5 : (withMem s m).readAct 0 0 d none 0 (tile0.row + r) = (withMem s m, .ok as) := h3
  simp only [h5]
  unfold State.dotRows
  simp only [State.eachOf, if_true, h4]

/-- The walk of such a tile ends without an error, and only memory changes. -/
theorem withMem_walk (s : State) (d : Desc) (ops : List TypedOp) (hD : tileD d) (hS : tileS s) :
    ∃ m, s.walk 0 d none ops 0 d.tiles = (withMem s m, none) := by
  obtain ⟨m, hm⟩ := withMem_dwell s d hD hS s.mem
  obtain ⟨ht, hu, hb, hg, hp, hr, hk, hz, ha, hw, hraw, hf, hc, hro, hov, htr⟩ := hD
  obtain ⟨hq, hq2, he, hrd, hao, hd⟩ := hS
  rw [(withMem_keeps s m (unitRq 4 0 false) 0 0 0 d).2.2.2.2] at hm
  refine ⟨m, ?_⟩
  have hacc : s.accumulate 0 d none tile0 0 = (withMem s m, .ok ()) := by
    unfold State.accumulate
    simp only [hb, hg, hp, List.getD_cons_zero, Nat.mul_one, List.range_one, State.eachOf, Nat.zero_div, Nat.zero_mod,
      Nat.zero_add, decide_true, Bool.true_and, hro, ne_eq, tile0]
    rw [show (⟨0, 0, 0, 8⟩ : Tile) = tile0 from rfl]
    simp only [reduceCtorEq, not_false_eq_true, decide_true, hu, State.eachOf, htr, hao]
    rw [hm]
  have hw1 : s.tileWork 0 d none ops 0 tile0 = (withMem s m, .ok ()) := by
    unfold State.tileWork
    rw [hq, hq2, hov, hb, if_neg (by decide)]
    rw [show List.range [0].length = [0] from rfl, show [0].filter (fun x => decide (x ≠ 0)) = [] from rfl]
    rw [show State.eachOf (fun s i => s.accumulate 0 d none tile0 i) s [0] = (withMem s m, .ok [()]) by
      rw [State.eachOf, hacc]; rfl]
    simp only [State.eachOf, hc, hraw, hf, Bool.false_eq_true, if_false]
  rw [ht, State.walk, hw1]
  rfl

theorem test_matmul_tile : tileD chainD ∧ tileS chainU2 := by unfold tileD tileS; decide +kernel

/-- The hypotheses of the clause about the tiles. -/
theorem test_matmul_walks : ∃ u2 : State, chainU2.walk 0 chainD none chainOps 0 chainD.tiles = (u2, none) ∧
    u2.stagedBeds chainD = [] ∧ Unasked u2 0 := by
  obtain ⟨m, hm⟩ := withMem_walk chainU2 chainD chainOps test_matmul_tile.1 test_matmul_tile.2
  have k := withMem_keeps chainU2 m (unitRq 4 0 false) 0 0 0 chainD
  refine ⟨_, hm, ?_, ?_⟩
  · rw [k.2.2.1]; decide +kernel
  · exact withMem_unasked chainU2 m 0 (unasked_meets _ _ (by decide +kernel))

/-- What the clause about one bed asks of a state and its descriptor, and that its operands lie in the bed's own Bed
Store. -/
def matmulPlaced (s : State) (raw combine : Bool) : Bool :=
  let d := descOf s 0
  let u := s.startRun 0 d
  let b := u.qBed 0
  accepted s 0 (u.matmulRanges d) && decide (d.opc = 0x10) && decide (d.raw = raw) && decide (d.combine = combine) &&
    decide (u.matrix.ecc = []) && decide (u.scrubs = []) && decide (d.tag = 0) && decide (d.split = 0) &&
    decide (d.chainRole = .none) && decide (u.stagedBeds d = []) && decide (u.issueCheck d = none) && u.isOn (4 + 9 * b) &&
    (d.arrays.all fun x => u.isOn (5 + 9 * b + x)) && bedOpen u b (u.qWho 0) &&
    inBed b (d.f 32 8) (d.m * d.k * d.actSize) && d.resident &&
    decide (bits d.wsrc 47 0 + d.groups * d.kt * d.passes * 2 ^ 18 ≤ 2 ^ 20) &&
    (!raw || inBed b d.psum (d.m * d.n * 8)) && (raw || (inBed b (d.f 64 8) 8 && inBed b (d.f 72 8) (4 * d.n) &&
      (List.range d.m).all fun r => inBed b (d.f 48 8 + r * d.f 58 2 * 64) (d.n * formatSize d.ofmt)))

theorem matmul_placed (s : State) (raw combine : Bool) (h : matmulPlaced s raw combine = true) :
    Accepted s 0 (descOf s 0) ((s.startRun 0 (descOf s 0)).matmulRanges (descOf s 0)) ∧
      (s.startRun 0 (descOf s 0)).matmulOpen 0 (descOf s 0) 1 := by
  simp only [matmulPlaced, Bool.and_eq_true, decide_eq_true_eq, List.all_eq_true, Bool.or_eq_true, Bool.not_eq_true'] at h
  obtain ⟨⟨⟨⟨⟨⟨⟨⟨⟨⟨⟨⟨⟨⟨⟨⟨⟨⟨ha, -⟩, hr⟩, hc⟩, h1⟩, h2⟩, h3⟩, h4⟩, h5⟩, h6⟩, h7⟩, h8⟩, h9⟩, hb⟩, hi⟩, hw⟩, hw2⟩, hraw⟩, hp⟩ := h
  have o := fun wr addr len => opens_in_bed _ _ _ wr addr len hb
  refine ⟨accepted_meets _ _ _ ha, h1, h2, h3, h4, h5, h6, h7, h8, h9, o _ _ _ hi, fun _ => hw2, ?_, ?_, ?_⟩
  · intro hf; rw [hw] at hf; cases hf
  · intro ht; rw [hr] at ht; subst ht; exact o _ _ _ (hraw.resolve_left (by simp))
  · intro hf; rw [hr] at hf; subst hf
    have hp' := hp.resolve_left (by simp)
    exact ⟨o _ _ _ hp'.1.1, o _ _ _ hp'.1.2, fun r hr => o _ _ _ (hp'.2 r (List.mem_range.mpr hr))⟩

/-- Raw, plain, and combining an empty partial set. -/
theorem test_matmul_placed : matmulPlaced (matmulQ 2 8) true false = true ∧ matmulPlaced (matmulQ 0 8) false false = true ∧
    matmulPlaced (matmulQ 4 8) false true = true := by decide +kernel

/-- The hypotheses about the stick, and about the partial set. -/
theorem test_matmul_stick : (∀ mode ∈ [0, 4], let d := descOf (matmulQ mode 8) 0
      let u := (matmulQ mode 8).startRun 0 d
      let stick := u.stickAt (d.f 64 8) 1
      (∀ o ∈ stick.dropLast, o.last = false) ∧ (∀ o ∈ stick.getLast?, o.last = true) ∧
        u.ownsTables (u.qPart 0) (u.qBed 0) stick = true ∧ ((u.postEnv (u.qBed 0) d).check {} 0 stick).isOk = true) ∧
    (matmulQ 4 8).rdBytes ((descOf (matmulQ 4 8) 0).psum % 2 ^ 53) 64 = zeros 64 ∧
    inBed 0 (descOf (matmulQ 4 8) 0).psum 64 = true := by decide +kernel

/-! ### Epoch Tracker -/

/-- An SX4 in RUN whose Tracker follows `EPOCH_REF` in LOCKED: epoch 7 since cycle 0, the next edge predicted at
20,000,000 cycles, the last edge at 0. -/
def track0 : Tracker where
  state := .locked
  source := .epochRef
  epoch := 7
  running := true
  pred := 20000000 * 256
  prevOk := true
def ref0 : State := { withObjs run0 [(0x2000, 1, 1)] with tracker := track0 }

theorem test_epoch_on_prediction : ref0.tracker.running = true ∧ ref0.tracker.onPred = false ∧
    ref0.tracker.source ≠ .divider ∧ run0.tracker.running = false ∧
    ok (exec .predictedEdge ref0) (fun t => decide (t.epoch = 8) && decide (t.tracker.start = 20000000) &&
      decide (t.cycle = 20000000)) = true ∧ isNext (exec .predictedEdge run0) run0 = true := by decide +kernel

/-- Under the divider, and in LOST. -/
def divided : State := { run0 with tracker := { track0 with source := .divider } }
def lost0 : State := { ref0 with tracker := { track0 with state := .lost } }

theorem test_epoch_boundary : divided.tracker.source = .divider ∧ lost0.tracker.state = .lost ∧
    ok (exec .epochBoundary divided) (fun t => decide (t.epoch = 8)) = true ∧
    ok (exec .epochBoundary lost0) (fun t => decide (t.epoch = 8) &&
      decide (t.tracker.outRise = some 20000128)) = true := by decide +kernel

/-- The latest edge in the window: P gains 1/16 of the error. -/
theorem test_qualified_edge : ref0.sourceSettled ∧ ref0.inWindow 20000002 = true ∧ ref0.inWindow 21250000 = true ∧
    ref0.inWindow 21250001 = false ∧
    ok (exec (.epochRefEdge 20000002) ref0) (fun t => decide (t.tracker.period = 20000000 * 256 + 32) &&
      decide (t.epoch = 8) && decide (t.obj 0x2004 1 = 1)) = true := by
  unfold State.sourceSettled; decide +kernel

/-- In host-time mode the next mark is predicted at 10^9 cycles. -/
def host0 : State := { withObjs run0 [(0x2000, 1, 2)] with
  tracker := { track0 with source := .hostTime, ppsPred := some (256 * 1000000000) } }

theorem test_pps_edge : host0.tracker.ppsPred = some (256 * 1000000000) ∧ host0.tracker.mark = none ∧
    (256 * (1000000050 : Int) - 256 * 1000000000).natAbs ≤ host0.windowHalf.natAbs ∧
    ok (exec (.ppsInEdge 1000000050) host0) (fun t => decide (t.tracker.period = 20000000 * 256 + 16) &&
      decide (t.tracker.ppsPred = some (256 * 2000000050))) = true := by decide +kernel

theorem test_spurious_edges : ok (exec (.epochRefEdge 21250001) ref0) (fun t => decide (t.obj 0x2004 2 = 1) &&
      decide (t.tracker = track0)) = true ∧
    isNext (exec (.epochRefEdge 5) host0) (host0.advance 107) = true ∧
    ok (exec (.ppsInEdge 5) { host0 with tracker := { host0.tracker with state := .lost } }) (fun t =>
      decide (t.obj 0x2004 2 = 1)) = true ∧
    ok (exec (.filteredPulse .epochRef) ref0) (fun t => decide (t.obj 0x2004 3 = 1)) = true ∧
    isNext (exec (.filteredPulse .ppsIn) ref0) ref0 = true := by decide +kernel

/-- In IDLE the object's source counts. -/
theorem test_filtered_idle :
    ok (exec (.filteredPulse .ppsIn) (withObjs { run0 with tracker := { state := .idle } } [(0x2000, 1, 2)])) (fun t =>
      decide (t.obj 0x2004 3 = 1)) = true := by decide +kernel

/-- A window closes with no edge missing yet, with 16 missing, and in between. -/
def missed (n : Nat) : State :=
  { ref0 with tracker := { track0 with missing := n, onPred := true, state := if n = 0 then .locked else .flywheel } }

theorem test_missed_windows : (missed 0).tracker.running = true ∧ (missed 0).tracker.onPred = true ∧
    ok (exec .windowClose (missed 0)) (fun t => decide (t.tracker.state = .flywheel) && decide (t.obj 0x7011 1 = 1)) = true ∧
    ok (exec .windowClose (missed 15)) (fun t => decide (t.tracker.state = .flywheel) && decide (t.faults.log = [])) = true ∧
    ok (exec .windowClose (missed 16)) (fun t => decide (t.tracker.state = .lost) && decide (t.obj 0x7011 2 = 1)) = true := by
  decide +kernel

theorem test_tracker_start : run0.keeperServes = true ∧ run0.tracker.state = .idle ∧ run0.obj 0x2000 1 = 0 ∧
    ok (exec .trackerStart (withObjs run0 [(0x2002, 0, 41)])) (fun t => decide (t.tracker.state = .locked) &&
      decide (t.epoch = 41)) = true ∧
    ok (exec .trackerStart (withObjs run0 [(0x2000, 1, 1)])) (fun t => decide (t.tracker.state = .acquire)) = true ∧
    ok (exec .trackerStart ref0) (fun t => decide (t.kpp.result = 9) && decide (t.tracker = track0)) = true := by
  decide +kernel

/-- The largest mark that Table EA-1 admits, one byte short of it, and one phase beyond. -/
def markBytes (phase : Nat) : List Byte := natLe (2 ^ 48 - 1) 6 ++ [0, 0] ++ natLe phase 4

theorem test_host_mark : (markBytes 0xFFFFF).length = 12 ∧ field (markBytes 0xFFFFF) 6 2 = 0 ∧
    field (markBytes 0xFFFFF) 8 4 < 2 ^ 20 ∧ 2 ^ 20 ≤ field (markBytes 0x100000) 8 4 ∧
    ok (exec (.hostEpochMark (markBytes 0xFFFFF)) run0) (fun t =>
      decide (t.tracker.mark = some (0xFFFFFFFFFFFF, 0xFFFFF)) && decide (t.kpp.result = 0)) = true ∧
    ok (exec (.hostEpochMark (markBytes 0x100000)) run0) (fun t => decide (t.kpp.result = 6)) = true ∧
    ok (exec (.hostEpochMark ((markBytes 0).take 11)) run0) (fun t => decide (t.kpp.result = 5)) = true := by
  decide +kernel

/-- Port 0 is UP and chip 0 the epoch master; a follower hears it on port 0. -/
def linked (s : State) : State := s.setLink 0 { state := .up }
def master0 : State := linked (withObjs ref0 [(0x2006, 3, 1)])
def follower : State := { linked (withObjs ref0 [(0x2006, 1, 5), (0x2006, 2, 0)]) with
  tracker := { track0 with source := .trellis } }

theorem test_tick_send : master0.obj 0x2006 1 = master0.chip.toNat ∧ master0.tracker.source ≠ .trellis ∧
    (master0.phase + 0xFFFF) / 0x10000 * 0x10000 < 2 ^ 20 ∧ (master0.obj 0x2006 3).testBit 0 = true ∧
    (master0.link 0).state = .up ∧
    ok (exec .tickSend master0) (fun t => decide ((t.link 0).replay.map (·.body) = [.tick 7 0 0])) = true := by
  decide +kernel

/-- A tick of phase 0x10000, reached at cycle 1,250,000, that arrives 10 cycles after that, and 51. -/
theorem test_tick_follow : follower.tracker.source = .trellis ∧ follower.obj 0x2006 2 = 0 ∧
    (follower.link 0).state = .up ∧ follower.tracker.cycleOf 7 0x10000 = 1250000 ∧
    ok (exec (.tick 0 0 7 0x10000 0 1250010) follower) (fun t => decide (t.tracker.start = 10) &&
      decide (t.faults.log = []) && decide (t.obj 0x2007 1 = 0xFFFFFFF6)) = true ∧
    ok (exec (.tick 0 0 7 0x10000 0 1250051) follower) (fun t => decide (t.obj 0x7011 5 = 1)) = true := by decide +kernel

/-! ### Almanac -/

/-- An SX4 in epoch 7, its phase beyond 0x10, with one entry at phase 0x10 on page 1: action, partition, target,
argument; all indices are P0's. -/
def due (s : State) (act p target arg : Nat) : State :=
  { s with
    cycle := 20000
    tracker := track0
    almanac := { pageA := [(0, BitVec.ofNat 128 (0x10 + p * 2 ^ 56 + act * 2 ^ 60 + 2 ^ 40 + target * 2 ^ 80 + arg * 2 ^ 96))] } }

/-- The entry comes up and takes effect. -/
def fires (s : State) (act : Nat) : Bool :=
  match (s.advance 20000).nextFiring with
  | some b => decide (b.index = 0) && decide (bits b.bits.toNat 63 60 = act) && ((s.advance 20000).popFiring b).takesEffect b
  | none => false

/-- Queue 0 in held mode with two descriptors pushed, queue 28 with one; timer 31 running since epoch 0. -/
def heldQ : State := (ringed (withObjs run0 [(0x3103, 1, 1)]) 0 64 []).setQueue 0 { tail := 2 }
def heldP : State := (ringed (withObjs run0 [(0x3103, 29, 1)]) 28 64 []).setQueue 28 { tail := 1 }
def timing (s : State) : State := { s with almanac := { s.almanac with timers := [(31, { running := true, limit := 7 })] } }

theorem test_almanac_fires : fires (due heldQ 3 0 0 5) 3 = true ∧ fires (due heldP 6 0 28 1) 6 = true ∧
    fires (due run0 4 0 0x13F 9) 4 = true ∧ fires (due run0 7 0 31 2) 7 = true ∧ fires (timing (due run0 8 0 31 0)) 8 = true ∧
    ((timing (due run0 8 0 31 0)).timer 31).running = true := by decide +kernel

theorem test_almanac_actions : ok (exec (.almanacRelease 0 20000) (due heldQ 3 0 0 5)) (fun t =>
      decide ((t.queue 0).rel = 2)) = true ∧
    ok (exec (.almanacPublish 0 20000) (due heldP 6 0 28 1)) (fun t => decide ((t.queue 28).rel = 1)) = true ∧
    ok (exec (.almanacSignal 0 20000) (due run0 4 0 0x13F 9)) (fun t => decide (t.counter 127 = 9)) = true ∧
    ok (exec (.timerStart 0 20000) (due run0 7 0 31 2)) (fun t => (t.timer 31).running &&
      decide ((t.timer 31).limit = 2)) = true ∧
    ok (exec (.timerStop 0 20000) (timing (due run0 8 0 31 0))) (fun t => decide ((t.timer 31).epochs = 7) &&
      !(t.timer 31).running) = true := by decide +kernel

/-- What was pushed in the release's own cycle waits (R36). -/
def lateQ (n : W32) : State := (due heldQ 3 0 0 5).setQueue 0 { tail := 2, pushCycle := 20000, tailBefore := n }
theorem test_release_cycle : ok (exec (.almanacRelease 0 20000) (lateQ 1)) (fun t => decide ((t.queue 0).rel = 1)) = true ∧
    ok (exec (.almanacRelease 0 20000) (lateQ 0)) (fun t => decide (t.queue 0 = (lateQ 0).queue 0)) = true ∧
    ok (exec (.almanacRelease 0 20001) (lateQ 0)) (fun t => decide ((t.queue 0).rel = 2)) = true := by decide +kernel

theorem test_timer_expire : ((timing (due run0 0 0 0 0)).timer 31).running = true ∧
    (7 : W32).toNat ≤ ((timing (due run0 0 0 0 0)).timerValue 31).1.toNat ∧
    ok (exec (.timerExpire 31) (timing (due run0 0 0 0 0))) (fun t => (t.timer 31).expired &&
      decide ((t.timer 31).phase = 0)) = true := by decide +kernel

/-- A step of P0 that is open; a frame list of P0 for epoch 8. -/
def stepped : State := { run0 with streams := { steps := [(0, { isOpen := true, epoch := 7 })] } }
def listed : State := { run0 with host := { lists := [(0, 8)] } }

theorem test_step_actions : fires (due run0 2 0 0 0) 2 = true ∧ fires (due stepped 5 0 0 0) 5 = true ∧
    (stepped.step1 0).judged = none ∧ stepped.spans (stepped.step1 0).group = false ∧
    (run0.step1 0).isOpen = false ∧
    ok (exec (.stepOpen 0 20000) (due run0 2 0 0 0)) (fun t => (t.step1 0).isOpen && decide ((t.step1 0).epoch = 7)) = true ∧
    ok (exec (.stepCommit 0 20000) (due stepped 5 0 0 0)) (fun t => !(t.step1 0).isOpen) = true := by decide +kernel

theorem test_ingest_cutoff : fires (due listed 1 0 0x100 0) 1 = true ∧ listed.qCons 24 = 6 ∧
    ok (exec (.ingestCutoff 0 20000) (due listed 1 0 0x100 0)) (fun t => decide (tget t.host.openEpoch 24 0 = 8)) = true := by
  decide +kernel

/-- A SIGNAL of P1, which owns no counter and no index, is skipped; an entry of a later phase has not come up. -/
theorem test_almanac_skip : ((due run0 4 1 0 1).advance 20000).nextFiring.isSome = true ∧ fires (due run0 4 1 0 1) 4 = false ∧
    ((due run0 4 0 0 1).advance 20000).nextFiring.isSome = true ∧
    ok (exec (.almanacSignal 0 20000) (due run0 4 1 0 1)) (fun t => decide (t.obj 0x2103 6 = 1) &&
      decide (t.counters = [])) = true ∧
    ({ due run0 4 0 0 1 with cycle := 0 }.advance 0).nextFiring = none := by decide +kernel

/-- An empty page B with its checksum, and one with a wrong word. -/
def paged (v : BitVec 128) (st : Nat) : State := { withObjs run0 [(0x2103, 3, st)] with almanac := { headB := v } }

theorem test_exchange : run0.obj 0x2103 1 = 1 ∧ run0.obj 0x2103 3 = 0 ∧
    ok (exec (.almanacExchangeRequest 2) run0) (fun t => decide (t.obj 0x2103 3 = 1) && decide (t.kpp.result = 0)) = true ∧
    ok (exec (.almanacExchangeRequest 2) (paged 0 1)) (fun t => decide (t.kpp.result = 9)) = true ∧
    ok (exec .almanacExchangeCancel (paged 0 2)) (fun t => decide (t.obj 0x2103 3 = 0)) = true ∧
    (2 : Nat) ≠ run0.obj 0x2103 1 := by decide +kernel

theorem test_exchange_at_boundary : (paged 0 2).obj 0x2103 3 = 2 ∧
    ok (exec .epochBoundary { paged 0 2 with tracker := divided.tracker }) (fun t => decide (t.obj 0x2103 1 = 2) &&
      decide (t.obj 0x2103 3 = 0)) = true := by decide +kernel

theorem crcBit_lt (c : Nat) (h : c < 2 ^ 32) : crcBit c < 2 ^ 32 := by
  unfold crcBit
  split
  · exact Nat.xor_lt_two_pow (by omega) (by decide)
  · omega

theorem crc32c_lt (l : List Byte) : crc32c l < 2 ^ 32 := by
  have h : ∀ (l : List Byte) (c : Nat), c < 2 ^ 32 → l.foldl crcByte c < 2 ^ 32 := by
    intro l
    induction l with
    | nil => exact fun c h => h
    | cons b r ih =>
      intro c h
      refine ih _ ?_
      unfold crcByte
      iterate 8 refine crcBit_lt _ ?_
      exact Nat.xor_lt_two_pow h (by have := b.isLt; omega)
  exact Nat.xor_lt_two_pow (h l _ (by decide)) (by decide)

/-- The state with this page B header. -/
def headed (s : State) (v : BitVec 128) : State := { s with almanac := { s.almanac with headB := v } }

theorem headed_entry (s : State) (v : BitVec 128) (i : Nat) : (headed s v).pageEntry 2 i = s.pageEntry 2 i := rfl

theorem headed_bytes (s : State) (v : BitVec 128) : (headed s v).pageBytes 2 = s.pageBytes 2 := by
  unfold State.pageBytes
  simp only [headed_entry]

theorem headed_head (s : State) (v : BitVec 128) : (headed s v).pageHead 2 = v := rfl

/-- A page of empty entries under a header that is only its checksum is valid. -/
theorem page_valid (s : State) (he : ∀ i, s.pageEntry 2 i = 0)
    (hh : (s.pageHead 2).toNat = crc32c (s.pageBytes 2) * 2 ^ 96) : s.pageReason 2 = none := by
  have hc := crc32c_lt (s.pageBytes 2)
  have h1 : bits (s.pageHead 2).toNat 127 96 = crc32c (s.pageBytes 2) := by
    rw [hh]; simp only [bits, Nat.shiftRight_eq_div_pow]; omega
  have h2 : bits (s.pageHead 2).toNat 79 1 = 0 := by
    rw [hh]; simp only [bits, Nat.shiftRight_eq_div_pow]; omega
  have h6 : reason2 0 = false := by decide
  unfold State.pageReason
  simp only [h1, h2, he]
  simp [h6]

/-- An empty page B under validation. -/
def blank : State := withObjs run0 [(0x2103, 3, 1)]
def goodPage : State := headed blank (BitVec.ofNat 128 (crc32c (blank.pageBytes 2) * 2 ^ 96))

theorem top_word (c : Nat) (h : c < 2 ^ 32) : (BitVec.ofNat 128 (c * 2 ^ 96)).toNat = c * 2 ^ 96 := by
  rw [BitVec.toNat_ofNat]
  exact Nat.mod_eq_of_lt (by omega)

theorem page_checked (s : State) (he : ∀ i, s.pageEntry 2 i = 0) :
    (headed s (BitVec.ofNat 128 (crc32c (s.pageBytes 2) * 2 ^ 96))).pageReason 2 = none := by
  refine page_valid _ (fun i => (headed_entry s _ i).trans (he i)) ?_
  rw [headed_head, headed_bytes]
  exact top_word _ (crc32c_lt _)

theorem headed_obj (s : State) (v : BitVec 128) (i : Nat) : (headed s v).obj 0x2103 i = s.obj 0x2103 i := rfl

theorem test_page_valid : goodPage.obj 0x2103 3 = 1 ∧ 3 - goodPage.obj 0x2103 1 = 2 ∧ goodPage.pageReason 2 = none := by
  unfold goodPage
  refine ⟨?_, ?_, page_checked blank fun i => rfl⟩
  · rw [headed_obj]; decide +kernel
  · rw [headed_obj]; decide +kernel

/-- A reserved bit of the page header: the page is refused with a reason. -/
theorem test_page_bad : ∃ r, (headed blank 2).pageReason 2 = some r := by
  have h2 : bits ((headed blank 2).pageHead 2).toNat 79 1 = 1 := by decide +kernel
  generalize headed blank 2 = s at *
  unfold State.pageReason
  by_cases h : bits (s.pageHead 2).toNat 127 96 = crc32c (s.pageBytes 2)
  · exact ⟨2, by simp [h, h2]⟩
  · exact ⟨1, by simp [h]⟩

/-! ### Streams and their state -/

/-- Entries and headers that use every field. -/
def fullEntry : Entry where
  life := .sealed
  part := 7
  size := 7
  pf := true
  seed := 15
  slot := 0x7FFF
  gen := 0xFFFFFFFF
  look := 127
  home := 0x1FFFFFF
  miss := 0xFFFFFFFF
  bank := 0xFFFFFFFFFFC0
  slen := 0xFFFF
  ring := 0xFFFFFFFFFFC0
  rsz := 255
def fullHeader : Header where
  valid := true
  cur := true
  stream := 0x3FFFF
  gen := 0xFFFFFFFF
  batch := 0xFFFF
  row := 127
  miss := 0xFFFFFFFF
  cepoch := 0xFFFFFFFFFFFF
  slen := 0xFFFF

theorem test_fits : fullEntry.fits ∧ fullHeader.fits := by unfold Entry.fits Header.fits; decide

/-- A Resident entry word as Table SS-1 places it: state 2 at [31:29], partition 1, slot 5, `GEN` 9, `HOME` 3. -/
theorem test_entry_word : entryOf 0x00000003_00000009_44000005 =
    ({ life := .resident, part := 1, slot := 5, gen := 9, home := 3 } : Entry) := by decide

/-- The SX4 of the mover tests with a window on the State Store and two slots for P0 (1,024 bytes). -/
def banked0 : State :=
  let s := withObjs open0 [(0x4000, 1, 0x100000), (0x4010, 3, 0x400)]
  { s with streams := { tableSet := true } }

/-- Stream 3, Banked at 0x2000 with 32 bytes, `GEN` 6; its bytes begin with 0xAB. -/
def ent3 : Entry := { life := .banked, gen := 6, home := 3, bank := 0x2000, slen := 32 }
def res3 : Entry := { ent3 with life := .resident, slot := 1 }
def bankedIn (s : State) : State := (s.setEntry 3 ent3).wrBytes 0x2000 [0xAB]
def residentIn (s : State) (b : Bool) : State :=
  ((s.setEntry 3 res3).setHeader 0 1 { valid := true, bound := b, stream := 3, gen := 6, slen := 32 }).wrBytes
    (memKey 1 0x240) [0xCD]

/-- A state descriptor for stream 3 in queue 16. -/
def stateQ (s : State) (opc form : Nat) (l : List (Nat × Nat × Nat)) : State :=
  ringed s 16 64 ([(0, 1, opc), (16, 4, 3 + form * 2 ^ 31)] ++ l)

/-- The hypotheses EntryReached and StateDescriptor of it, computed. -/
def entryMeets (u : State) (i : Nat) : Bool :=
  decide (u.matrix.ecc = []) && u.streams.tableSet && !u.streams.clearing && u.inRange (u.qPart 16) i &&
    (u.resolve { master := 8, who := u.qWho 16, addr := u.entryAddr i, len := 32, rd := true, wr := true }).isOk

theorem entry_meets (u : State) (i : Nat) (h : entryMeets u i = true) : EntryReached u 16 i := by
  simp only [entryMeets, Bool.and_eq_true, decide_eq_true_eq, Bool.not_eq_true'] at h
  exact ⟨h.1.1.1.1, h.1.1.1.2, h.1.1.2, h.1.2, is_ok _ h.2⟩

def stateMeets (s : State) (opc : Nat) (form : Bool) (e : Entry) : Bool :=
  let d := descOf s 16
  let u := s.startRun 16 d
  accepted s 16 (if opc = 0x30 ∧ form then createRanges d else none) && decide (d.opc = opc) &&
    decide ((d.f 16 4).testBit 31 = form) && decide ((s.queue 16).run = none) && entryMeets u (d.f 16 4 % 2 ^ 18) &&
    decide (u.entry (d.f 16 4 % 2 ^ 18) = e)

theorem state_meets (s : State) (opc : Nat) (form : Bool) (e : Entry) (h : stateMeets s opc form e = true) :
    StateDescriptor s 16 (descOf s 16) opc form e := by
  simp only [stateMeets, Bool.and_eq_true, decide_eq_true_eq] at h
  exact ⟨accepted_meets _ _ _ h.1.1.1.1.1, h.1.1.1.1.2, h.1.1.1.2, h.1.1.2, entry_meets _ _ h.1.2, h.2⟩

def inQ : State := stateQ (bankedIn banked0) 0x30 0 []
def fullQ : State := stateQ ((bankedIn banked0).setHeader 0 0 { valid := true }
  |>.setHeader 0 1 { valid := true }) 0x30 0 []
def outQ : State := stateQ (residentIn banked0 false) 0x31 0 []
def boundQ : State := stateQ (residentIn banked0 true) 0x31 0 []
def endQ : State := stateQ (residentIn banked0 false) 0x31 1 []
def createQ : State := (stateQ (withObjs (banked0.setEntry 3 { gen := 6 }) [(0x4010, 4, 0x3000)]) 0x30 1
  [(20, 1, 1), (24, 2, 32), (32, 6, 0x2040)]).wrBytes (0x3000 + 256) [0xEE]
def bankedEnd : State := stateQ (bankedIn banked0) 0x31 1 []
def badLen : State := stateQ banked0 0x30 1 [(24, 2, 33), (32, 6, 0x2040)]

theorem test_state_hypotheses : stateMeets inQ 0x30 false ent3 = true ∧ stateMeets fullQ 0x30 false ent3 = true ∧
    stateMeets outQ 0x31 false res3 = true ∧ stateMeets boundQ 0x31 false res3 = true ∧
    stateMeets endQ 0x31 true res3 = true ∧ stateMeets bankedEnd 0x31 true ent3 = true ∧ stateMeets createQ 0x30 true { gen := 6 } = true ∧
    stateMeets badLen 0x30 true {} = true := by decide +kernel

/-- Table SS-2: what each form does not admit. -/
theorem test_state_not_admitted : stateMeets (stateQ banked0 0x30 0 []) 0x30 false {} = true ∧
    stateMeets (stateQ banked0 0x31 0 []) 0x31 false {} = true ∧ stateMeets (stateQ banked0 0x31 1 []) 0x31 true {} = true ∧
    stateMeets (stateQ (bankedIn banked0) 0x30 1 [(24, 2, 32)]) 0x30 true ent3 = true ∧
    stateMeets (stateQ (banked0.setEntry 3 { ent3 with part := 1 }) 0x30 0 []) 0x30 false { ent3 with part := 1 } = true ∧
    ok (exec (.stateIn 16) (stateQ banked0 0x30 0 [])) (fun t => ended t 16 2 0x206 0) = true ∧
    ok (exec (.stateOutEnd 16) (stateQ banked0 0x31 1 [])) (fun t => ended t 16 2 0x206 0) = true := by decide +kernel

theorem test_state_at_once : stateMeets (stateQ (residentIn banked0 false) 0x30 0 []) 0x30 false res3 = true ∧
    stateMeets (stateQ (residentIn banked0 false) 0x30 1 []) 0x30 true res3 = true ∧
    stateMeets (stateQ (bankedIn banked0) 0x31 0 []) 0x31 false ent3 = true ∧
    stateMeets (stateQ (banked0.setEntry 3 { ent3 with pf := true }) 0x30 0 []) 0x30 false { ent3 with pf := true } = true ∧
    ((boundQ.startRun 16 (descOf boundQ 16)).header 0 1).bound = true ∧
    ok (exec (.stateOut 16) boundQ) (fun t => decide ((t.queue 16).run.map (·.phase) = some .waiting)) = true := by
  decide +kernel

/-- What each state descriptor asks of the places of its stream. -/
def startOf (s : State) : State := s.startRun 16 (descOf s 16)
def inMeets : Bool :=
  let u := startOf inQ
  decide (u.entryOff 3 + 32 ≤ 2 ^ 48) && decide (u.freeSlot (u.qPart 16) = some 0) &&
    ramIn u 8 (u.qWho 16) false (2 ^ 30) (localAddr 0 0x2000) 32 &&
    storeBy u (u.qWho 16) true (u.halfOff (u.qPart 16) 0 false) 32
def outMeets : Bool :=
  let u := startOf outQ
  decide (u.entryOff 3 + 32 ≤ 2 ^ 48) && !(u.header 0 1).bound &&
    ramIn u 8 (u.qWho 16) true (2 ^ 30) (localAddr 0 0x2000) 32 &&
    storeBy u (u.qWho 16) false (u.halfOff 0 1 (u.header 0 1).cur) 32 && decide (0x2000 + 32 ≤ u.entryOff 3)
def endMeets (s : State) : Bool :=
  let u := startOf s
  decide (u.entryOff 3 + 32 ≤ 2 ^ 48) && !(u.header 0 1).bound && decide (s.streams.prefetches = []) &&
    ramIn u 8 (u.qWho 16) true (2 ^ 30) (localAddr 0 0x2000) 32 && decide (0x2000 + 32 ≤ u.entryOff 3)
def createMeets : Bool :=
  let d := descOf createQ 16
  let u := startOf createQ
  u.slenOk 0 (d.f 24 2) && decide (u.qPart 16 = 0) && decide (u.freeSlot 0 = some 0) && decide (u.obj 0x4010 1 < 8) &&
    ramIn u 8 (u.qWho 16) false (2 ^ 30) (u.obj 0x4010 4 + d.f 20 1 * u.seedStride 0) (d.f 24 2) &&
    storeBy u (u.qWho 16) true (u.halfOff 0 0 false) (d.f 24 2) &&
    ramIn u 8 (u.qWho 16) true (2 ^ 30) (localAddr 0 (d.f 32 6)) (d.f 24 2)

theorem test_moves_accepted : inMeets = true ∧ (startOf fullQ).freeSlot 0 = none ∧ outMeets = true ∧ endMeets endQ = true ∧
    endMeets bankedEnd = true ∧ createMeets = true ∧ (startOf badLen).slenOk 0 33 = false := by decide +kernel

theorem test_state_in_open : StateDescriptor inQ 16 (descOf inQ 16) 0x30 false ent3 ∧
    (startOf inQ).opens 8 ((startOf inQ).qWho 16) false (localAddr 0 0x2000) 32 ∧
    (startOf inQ).storeOpen ((startOf inQ).qWho 16) true ((startOf inQ).halfOff ((startOf inQ).qPart 16) 0 false) 32 := by
  have h : inMeets = true := test_moves_accepted.1
  simp only [inMeets, Bool.and_eq_true] at h
  exact ⟨state_meets _ _ _ _ test_state_hypotheses.1, ram_in _ _ _ _ _ _ _ h.1.2, store_by _ _ _ _ _ h.2⟩

set_option maxRecDepth 100000 in
/-- The committed half gets the banked bytes; the bank has them after a swap-out. -/
theorem test_state_in : ok (exec (.stateIn 16) inQ) (fun t => ended t 16 0 0 0) = true ∧
    ((startOf inQ).bankToSlot 0 0 ent3).1.rd8 (memKey 1 0x40) = 0xAB ∧
    ok (exec (.stateIn 16) fullQ) (fun t => ended t 16 2 0x201 0) = true ∧
    ok (exec (.stateOut 16) outQ) (fun t => ended t 16 0 0 0 && decide (t.rd8 0x2000 = 0xCD)) = true := by decide +kernel

set_option maxRecDepth 100000 in
theorem test_state_create_end : ok (exec (.stateInCreate 16) createQ) (fun t => ended t 16 0 0 0 &&
      decide (tget t.streams.creates 0 0 = 1)) = true ∧
    ok (exec (.stateInCreate 16) badLen) (fun t => ended t 16 2 0x206 0) = true ∧
    ok (exec (.stateOutEnd 16) endQ) (fun t => ended t 16 0 0 0) = true ∧
    ok (exec (.stateOutEnd 16) bankedEnd) (fun t => ended t 16 0 0 0) = true := by decide +kernel

set_option maxRecDepth 100000 in
/-- Slot 1 flips and misses. -/
theorem test_flip_miss : ((residentIn banked0 true).flipSlot 0 9 1).header 0 1 =
      ({ valid := true, cur := true, stream := 3, gen := 6, cepoch := 9, slen := 32 } : Header) ∧
    ((residentIn banked0 true).missSlot 0 1).header 0 1 =
      ({ valid := true, stream := 3, gen := 6, miss := 1, slen := 32 } : Header) := by decide +kernel

/-- Slot 1 is bound in P0's open step; it is done, since the given cycle. -/
def judging (d : Bool) (c : Nat) : State :=
  let s := residentIn banked0 true
  let s := s.setHeader 0 1 { s.header 0 1 with step := d }
  due { s with streams := { s.streams with
    steps := [(0, { isOpen := true, epoch := 7 })], batches := [{ part := 0, tag := 9, rows := [some (3, 1)] }],
    doneCycle := c, doneNow := [(0, 1)] } } 5 0 0 0

/-- DONE set before the commit's cycle, in it, never (R11). -/
theorem test_commit_done : (judging true 19999).boundSlots 0 = [1] ∧ fires (judging true 20000) 5 = true ∧
    ok (exec (.stepCommit 0 20000) (judging true 19999)) (fun t => (t.header 0 1).cur) = true ∧
    ok (exec (.stepCommit 0 20000) (judging true 20000)) (fun t => !(t.header 0 1).cur && decide ((t.header 0 1).miss = 1)) = true ∧
    ok (exec (.stepCommit 0 20000) (judging false 0)) (fun t => decide ((t.header 0 1).miss = 1)) = true := by decide +kernel

theorem test_table_base : run0.keeperServes = true ∧ run0.locked = false ∧ run0.streams.tableSet = false ∧
    (withObjs run0 [(0x1201, 0, 1)]).locked = true ∧
    ok (exec (.streamTableBaseWrite 0x10000) run0) (fun t => t.streams.clearing && decide (t.kpp.result = 0)) = true ∧
    ok (exec (.streamTableBaseWrite 0x10001) run0) (fun t => decide (t.kpp.result = 6)) = true ∧
    ok (exec (.streamTableBaseWrite 0x10000) (withObjs run0 [(0x1201, 0, 1)])) (fun t => decide (t.kpp.result = 7))
      = true := by decide +kernel

/-- Its clearing over, with the response that waited for it. -/
def mbWrite : KppRequest where
  transport := .mailbox
  client := 1
  txn := 5
  tgt := 0
  index := 0x4000
  sub := 1
  len := 8
  payload := natLe 0x10000 8
  length := 16
def clearing (d : Option Held) : State := { withObjs run0 [(0x4000, 1, 0x10000)] with
  streams := { tableSet := true, clearing := true }
  kpp := { deferred := d } }

theorem test_table_cleared : (clearing none).streams.clearing = true ∧ (clearing none).kpp.deferred = none ∧
    (run0.holdOf 2 mbWrite).cmd = 2 ∧ (run0.holdOf 2 mbWrite).discard = false ∧
    (run0.holdOf 2 mbWrite).key.chip = run0.chip ∧ (run0.holdOf 2 mbWrite).key.transport = .mailbox ∧
    ok (exec .streamTableCleared ((clearing (some (run0.holdOf 2 mbWrite))).wrBytes 0x11000 [0xAB])) (fun t =>
      !t.streams.clearing && decide (t.rd8 0x11000 = 0) && t.kpp.respValid) = true := by decide +kernel

/-- A STEP_BIND of eight rows, row 2 stream 3; the step of P0 open. -/
def binder (s : State) : State := (ringed s 16 64 [(0, 1, 0x32), (4, 2, 9), (16, 1, 8), (24, 8, 0x4000)]).wrBytes 0x4008
  [3, 0, 0, 0x80]
def bindable0 : State := binder { residentIn banked0 false with streams := {
  (residentIn banked0 false).streams with steps := [(0, { isOpen := true, epoch := 7 })] } }

/-- What a bind asks of the places of its list and of stream 3's entry. -/
def bindMeets (s : State) : Bool :=
  let d := descOf s 16
  let u := s.startRun 16 d
  let rows := rowIndices (s.rdBytes (d.f 24 8 % 2 ^ 53) (4 * d.f 16 1)) (d.f 16 1)
  accepted s 16 (bindRanges d) && decide (d.opc = 0x32) && decide (s.matrix.ecc = []) && decide (u.qPart 16 = 0) &&
    ramIn u 8 (u.qWho 16) false (2 ^ 30) (d.f 24 8) (4 * d.f 16 1) && entryMeets u 3 && decide ((u.step1 0).judged = none) &&
    decide (rows = [none, none, some 3, none, none, none, none, none]) && u.streams.tableSet

theorem test_bind_hypotheses : bindMeets bindable0 = true ∧ bindMeets (binder (residentIn banked0 false)) = true ∧
    bindMeets (binder (residentIn banked0 true)) = true ∧ (bindable0.step1 0).isOpen = true ∧
    bindable0.bindable 0 3 = true ∧ (binder (residentIn banked0 true)).bindable 0 3 = false := by decide +kernel

theorem test_bind_open : (startOf bindable0).opens 8 ((startOf bindable0).qWho 16) false
      ((descOf bindable0 16).f 24 8) (4 * (descOf bindable0 16).f 16 1) ∧ EntryReached (startOf bindable0) 16 3 := by
  have h := test_bind_hypotheses.1
  simp only [bindMeets, Bool.and_eq_true] at h
  exact ⟨ram_in _ _ _ _ _ _ _ h.1.1.1.1.2, entry_meets _ _ h.1.1.1.2⟩

theorem test_bind : ok (exec (.stepBind 16) bindable0) (fun t => ended t 16 0 0 0 && (t.header 0 1).bound &&
      decide ((t.header 0 1).batch = 9) && decide ((t.header 0 1).row = 2) && decide (t.boundSlots 0 = [1])) = true ∧
    ok (exec (.stepBind 16) (binder (residentIn banked0 false))) (fun t => ended t 16 2 0x206 0) = true := by
  decide +kernel

/-- An entry PREFETCH; a prefetch of stream 3 into slot 1 in flight, its partition's step opened or not. -/
def inFlight (o : Bool) : State :=
  let s := (banked0.setEntry 3 { ent3 with pf := true, slot := 1 }).setHeader 0 1 { valid := true, tent := true, stream := 3 }
  { s with streams := { s.streams with prefetches := [{ stream := 3, part := 0, slot := 1, opened := o }] } }

/-- A `PREFETCH` of P0 whose due list at 0x5000 counts n streams, the first 3, with the limit arg. -/
def prefetchIn (s : State) (n : Byte) (arg : Nat) : State :=
  due (withObjs (s.wrBytes 0x5000 [n, 0, 0, 0, 3]) [(0x4010, 5, 0x5000)]) 0xB 0 0 arg

/-- What it asks of the list, and of stream 3's entry. -/
def prefetchMeets (s : State) (arg : Nat) (here : Bool) : Bool :=
  let base := s.obj 0x4010 5
  fires s 0xB && decide (s.matrix.ecc = []) &&
    ramIn s 8 (partByte 0) false (2 ^ 30) base (4 + 4 * Min.min (s.rdNat (base % 2 ^ 53) 4) arg) &&
    decide (Min.min (s.rdNat (base % 2 ^ 53) 4) arg = Min.min (s.rd8 0x5000).toNat arg) &&
    (!here || (decide (s.rdNat ((base + 4) % 2 ^ 53) 4 = 3) && s.inRange 0 3 && s.streams.tableSet && !s.streams.clearing &&
      decide (s.entryOff 3 + 32 ≤ 2 ^ 48) &&
      (s.resolve { master := 8, who := partByte 0, addr := s.entryAddr 3, len := 32, rd := true, wr := true }).isOk))

/-- None due; one that is Banked, with a slot and without; one that is Resident. -/
theorem test_prefetch_hypotheses : prefetchMeets (prefetchIn (bankedIn banked0) 1 0) 0 false = true ∧
    prefetchMeets (prefetchIn (bankedIn banked0) 1 4) 4 true = true ∧
    ((prefetchIn (bankedIn banked0) 1 4).entry 3).pf = false ∧ (prefetchIn (bankedIn banked0) 1 4).freeSlot 0 = some 0 ∧
    prefetchMeets (prefetchIn fullQ 1 4) 4 true = true ∧ (prefetchIn fullQ 1 4).freeSlot 0 = none ∧
    prefetchMeets (prefetchIn (residentIn banked0 false) 1 4) 4 true = true ∧
    ((prefetchIn (residentIn banked0 false) 1 4).entry 3).life ≠ .banked := by decide +kernel

/-- The swap-in's bytes are read and written, its step opened or not. -/
theorem test_swap_in_hypotheses : ∀ o ∈ [true, false], let s := inFlight o
    s.matrix.ecc = [] ∧ ramIn s 8 (partByte 0) false (2 ^ 30) (localAddr 0 (s.entry 3).bank) (s.entry 3).slen = true ∧
    storeBy s (partByte 0) true (s.halfOff 0 1 false) (s.entry 3).slen = true ∧ s.entryOff 3 + 32 ≤ 2 ^ 48 := by
  decide +kernel

theorem test_prefetch : ok (exec (.prefetch 0 20000) (due (withObjs ((bankedIn banked0).wrBytes 0x5000 [1, 0, 0, 0, 3])
      [(0x4010, 5, 0x5000)]) 0xB 0 0 4)) (fun t => decide (t.streams.prefetches.map (·.stream) = [3])) = true ∧
    ok (exec (.prefetchSwapInDone 3) (inFlight true)) (fun t => decide (t.entry 3 = { res3 with slot := 1 }) &&
      decide (t.streams.prefetches = [])) = true ∧
    ok (exec (.prefetchSwapInDone 3) (inFlight false)) (fun t => (t.entry 3).pf &&
      decide (t.streams.prefetches.map (·.complete) = [true])) = true := by decide +kernel

/-- EXPORT of the Banked stream 3 to index 5 of this SX4, its record at 0x6000; and with that entry's `GEN` full. -/
def exportQ (gen : Nat) : State := ringed ((bankedIn banked0).setEntry 5 { gen }) 16 64
  [(0, 1, 0x33), (16, 4, 3), (20, 4, 5), (24, 8, 0x6000)]

/-- What an export asks of the places of its stream, its destination and its record; of the record behind the `GEN`. -/
def exportMeets (s : State) (g : Nat) (e : Entry) : Bool :=
  let d := descOf s 16
  let u := s.startRun 16 d
  let dest := d.f 20 4
  let asked := dest / 2 ^ 18 * 2 ^ 53 + u.entryOff (dest % 2 ^ 18) + 4
  let h := u.header e.part e.slot
  accepted s 16 none && decide (d.opc = 0x33) && u.recOk (d.f 24 8) && decide ((s.queue 16).run = none) &&
    entryMeets u 3 && decide (d.f 16 4 % 2 ^ 18 = 3) && decide (u.entry 3 = e) &&
    (decide (e.life = .resident) && !h.bound || decide (e.life = .banked) && decide (s.streams.prefetches = [])) &&
    decide (u.entryOff (dest % 2 ^ 18) + 8 ≤ 2 ^ 53) && decide (u.entryOff 3 + 32 ≤ 2 ^ 48) && decide (dest < 2 ^ 25) &&
    (if dest / 2 ^ 18 = u.chip.toNat then ramIn u 8 (u.qWho 16) false (2 ^ 30) asked 4 &&
        decide (s.rdNat (asked % 2 ^ 53) 4 = g) && ramIn u 8 (u.qWho 16) false (2 ^ 30) (localAddr 0 e.bank) e.slen &&
        (decide (e.life = .banked) || storeBy u (u.qWho 16) false (u.halfOff e.part e.slot h.cur) e.slen) &&
        ramIn u 8 (u.qWho 16) true (2 ^ 30) (d.f 24 8) 192 && decide (d.f 24 8 % 2 ^ 53 + 192 ≤ u.entryOff 3)
      else decide (asked % 64 ≤ 60) && (u.routePort (BitVec.ofNat 7 (dest / 2 ^ 18))).isSome)

/-- The same of the Resident stream; and to an entry of chip 1, on the port that is UP. -/
def exportRes : State := ringed ((residentIn banked0 false).setEntry 5 { gen := 8 }) 16 64
  [(0, 1, 0x33), (16, 4, 3), (20, 4, 5), (24, 8, 0x6000)]
def exportFar : State :=
  let s := ringed (withObjs (bankedIn banked0) [(0x3300, 4, 0x80 * 256)]) 16 64
    [(0, 1, 0x33), (16, 4, 3), (20, 4, 2 ^ 18 + 5), (24, 8, 0x6000)]
  s.setLink 0 { state := .up }

set_option maxRecDepth 100000 in
theorem test_export_hypotheses : exportMeets (exportQ 8) 8 ent3 = true ∧
    exportMeets (exportQ (2 ^ 32 - 1)) (2 ^ 32 - 1) ent3 = true ∧ exportMeets exportRes 8 res3 = true ∧
    exportMeets exportFar 0 ent3 = true ∧ ent3.slen = 32 := by decide +kernel

theorem test_export : ok (exec (.exportRecord 16) (exportQ (2 ^ 32 - 1))) (fun t => ended t 16 2 0x206 0) = true ∧
    ok (exec (.exportRecord 16) exportFar) (fun t => decide (((t.queue 16).run.map (·.phase)) = some .waiting) &&
      decide (t.remote.length = 1)) = true := by
  decide +kernel

/-- The record of stream 3 for index 5, `GEN` 9, and its IMPORT over an entry with some `GEN`. -/
def rec3 : List Byte := sealRecord (recordBody ent3 3 5 9 0 0 7 0 ((0xAB : Byte) :: zeros 31))
def importQ (gen : Nat) : State := (ringed (banked0.setEntry 5 { gen }) 16 64 [(0, 1, 0x34), (16, 8, 0x6000),
  (24, 6, 0x2080)]).wrBytes 0x6000 rec3

/-- What an import asks of the places of its record, its stream's entry and its bank. -/
def importMeets (g : Nat) : Bool :=
  let s := importQ g
  let d := descOf s 16
  let u := s.startRun 16 d
  let record := d.f 16 8
  let len := field (s.rdBytes (record % 2 ^ 53) 64) 4 4
  let l := s.rdBytes (record % 2 ^ 53) len
  accepted s 16 none && decide (d.opc = 0x34) && decide (record % 64 = 0) && (u.localPlace record).isSome &&
    decide (d.f 24 6 % 64 = 0) && decide (d.f 32 6 % 64 = 0) &&
    ramIn u 8 (u.qWho 16) false (2 ^ 30) record (Max.max 64 len) && decide (len = recordLen 32) &&
    decide (field (s.rdBytes (record % 2 ^ 53) 64) 30 2 = 32) && recordOk l &&
    decide (field l 16 4 / 2 ^ 18 = u.chip.toNat) && decide (field l 28 1 = u.qPart 16) &&
    decide (field l 24 4 = u.partObj 0 12) && decide (field l 16 4 % 2 ^ 18 = 5) && entryMeets u 5 &&
    decide (u.entryOff 5 + 32 ≤ 2 ^ 48) && u.slenOk 0 32 && decide (field l 38 1 ≤ 64) && decide (u.obj 0x4010 1 < 8) &&
    decide ((u.entry 5).life = .free) && decide ((u.entry 5).gen = g) && decide (field l 20 4 = 9) &&
    ramIn u 8 (u.qWho 16) true (2 ^ 30) (localAddr 0 (d.f 24 6)) 32 && decide (d.f 24 6 + 32 ≤ u.entryOff 5)

set_option maxRecDepth 100000 in
theorem test_import_hypotheses : importMeets 8 = true ∧ importMeets 9 = true ∧ importMeets 7 = true := by decide +kernel

set_option maxRecDepth 100000 in
theorem test_import : ok (exec (.importRecord 16) (importQ 8)) (fun t => ended t 16 0 0 0 &&
      decide (t.rd8 0x2080 = 0xAB)) = true ∧
    ok (exec (.importRecord 16) (importQ 9)) (fun t => ended t 16 1 0 0) = true ∧
    ok (exec (.importRecord 16) (importQ 7)) (fun t => ended t 16 2 0x203 0) = true := by decide +kernel

/-! ### Host port -/

/-- Host ring of queue 28: 4 KiB at 0x1000, some bytes written and not read. -/
def ringSX (w r : W32) : State :=
  { open0 with host := { open0.host with linkUp := true, rings := [(28, { base := 0x1000, size := 4096, widx := w, ridx := r })] } }

theorem test_ring_hypotheses : (ringSX 128 64).hostReaches = true ∧ (ringed (ringSX 0 0) 28 64 []).hostReaches = true ∧ (ringSX 128 64).qCons 28 = 7 ∧
    ((ringSX 128 64).queue 28).tail = ((ringSX 128 64).queue 28).head ∧
    (ringed (ringSX 0 0) 28 64 []).qCons 28 = 7 ∧
    ((ringed (ringSX 0 0) 28 64 []).queue 28).tail ≠ ((ringed (ringSX 0 0) 28 64 []).queue 28).head ∧
    ({ ringSX 128 64 with power := { dev := .run, perstLow := true } } : State).hostReaches = false := by decide +kernel

theorem test_ridx : ok (exec (.ridxWrite 28 128) (ringSX 128 64)) (fun t => decide ((t.ring 28).ridx = 128)) = true ∧
    ok (exec (.ridxWrite 28 192) (ringSX 128 64)) (fun t => decide ((t.ring 28).rstale = 1) &&
      decide ((t.ring 28).ridx = 64)) = true ∧
    ok (exec (.hostRingConfig 28 .size 8192) (ringSX 128 64)) (fun t => decide ((t.ring 28).widx = 0) &&
      decide ((t.ring 28).size = 8192)) = true := by decide +kernel

/-- A PUBLISH of one row, stream 3, that is not Resident: a MISSED record. -/
def publishQ (w r : W32) : State :=
  let s := withObjs (ringSX w r) [(0x4000, 1, 0x100000)]
  (ringed { s with streams := { s.streams with tableSet := true } } 28 64 [(0, 1, 0x60), (17, 1, 1), (18, 2, 4),
    (20, 1, 3), (21, 1, 1), (24, 8, 0x6000), (32, 8, 0x4000)]).wrBytes 0x4000 [3, 0, 0, 0x80]

/-- The same without a valid row; and of a stream whose scores of this epoch, 0, are committed. -/
def publishNone : State := (publishQ 0 0).wrBytes 0x4003 [0]
def publishScores : State := ((publishQ 0 0).setEntry 3 res3).setHeader 0 1 { valid := true, stream := 3, gen := 6, slen := 32 }

/-- What a `PUBLISH` asks of the places of its list, and of the entry and scores of its one row. -/
def publishMeets (s : State) (rows : List (Nat × Nat)) (c : Bool) : Bool :=
  let d := descOf s 28
  let u := s.startRun 28 d
  accepted s 28 (publishRanges d) && decide (d.opc = 0x60) && decide (s.matrix.ecc = []) &&
    ramIn u 13 (u.qWho 28) false 0x100000 (d.f 32 8) (4 * d.f 21 1) &&
    decide (((List.range (d.f 21 1)).zip (rowIndices (s.rdBytes (d.f 32 8 % 2 ^ 53) (4 * d.f 21 1)) (d.f 21 1))).filterMap
      (fun e => e.2.map fun i => (e.1, i)) = rows) &&
    decide (u.entryOff 3 + 32 ≤ 2 ^ 48) && opensBy u 13 (u.qWho 28) false (u.entryAddr 3) 32 &&
    decide (u.committedNow (u.qPart 28) 3 (u.entry 3) = c) &&
    ramIn u 13 (u.qWho 28) false 0x100000 (d.f 24 8) (d.f 18 2 * formatSize (d.f 20 1)) && u.isOn 48

theorem publish_open (s : State) (c : Bool) (h : publishMeets s [(0, 3)] c = true) :
    (s.startRun 28 (descOf s 28)).publishOpen 28 (descOf s 28) 0 3 := by
  simp only [publishMeets, Bool.and_eq_true, decide_eq_true_eq] at h
  refine ⟨h.1.1.1.1.2, opens_by _ _ _ _ _ _ h.1.1.1.2, fun _ => ?_⟩
  rw [Nat.zero_mul, Nat.add_zero]
  exact ram_in _ _ _ _ _ _ _ h.1.2

/-- With room and without, without a row, with committed scores. -/
theorem test_publish_hypotheses : publishMeets (publishQ 0 0) [(0, 3)] false = true ∧
    publishMeets (publishQ 4096 0) [(0, 3)] false = true ∧ publishMeets publishNone [] false = true ∧
    publishMeets publishScores [(0, 3)] true = true ∧ (publishQ 0 0).host.linkUp = true ∧
    ((publishQ 0 0).ring 28).room 64 = true ∧ ((publishQ 4096 0).ring 28).room 64 = false ∧
    (((publishQ 0 0).startRun 28 (descOf (publishQ 0 0) 28)).publishRecord 28 (descOf (publishQ 0 0) 28) 0 3).length = 64 := by
  decide +kernel

theorem test_publish : ok (exec (.publish 28) (publishQ 0 0)) (fun t => ended t 28 0 0 0 &&
      decide (t.outputs.hostWrites.map (·.addr) = [0x1000])) = true ∧
    ok (exec (.publish 28) (publishQ 4096 0)) (fun t => decide (t.outputs.hostWrites = []) &&
      decide ((t.queue 28).run.map (·.phase) = some .waiting)) = true := by decide +kernel

/-- It waits; then the ring is read. -/
def publishWaits : State := (after (exec (.publish 28) (publishQ 4096 0))).ridxWrite 28 4096

theorem test_host_ring_write : (match publishWaits.waitingRun 28 0x60 with
      | some r => decide (r.records.length = 1) && decide (r.ending.code = 0) &&
          r.records.all fun l => (publishWaits.ring 28).room l.length
      | none => false) = true ∧ publishWaits.host.linkUp = true ∧
    ok (exec (.hostRingWrite 28) publishWaits) (fun t => ended t 28 0 0 0 &&
      decide (t.outputs.hostWrites.map (·.addr) = [0x1000]) && decide ((t.ring 28).widx = 4160)) = true := by decide +kernel

/-- A frame record for stream 3 of chip 0 and epoch 8: 2 values of format 3; 64 bytes. -/
def frame (i ep n : Nat) : List Byte := record 64 [(0, 4, i), (4, 6, ep), (10, 2, n), (12, 1, 3), (14, 2, 64)]

/-- Queue 24 takes epoch 8, has buffer 0 with room; stream 3 is Banked, with look-back or without. -/
def ingestQ (up : Bool) (e : Entry := ent3) : State :=
  let s := (withObjs (bankedIn banked0) [(0x3500, 1, 0x1000000), (0x3500, 0x10, 0x3000000)]).setEntry 3 e
  ringed { s with host := { s.host with linkUp := up, openEpoch := [(24, 8)], buffers := [
    { number := 0, queue := 24, epoch := 8, fill := 64 }] } } 24 64 [(0, 1, 0x80), (16, 8, 0x10000), (24, 4, 64), (28, 4, 1)]
def ringed3 : Entry := { ent3 with look := 3, ring := 0x4000000, rsz := 2 }

/-- The places that a frame record's entry and an accepted frame record ask for. -/
def frameMeets (u : State) (l : List Byte) : Bool :=
  decide (u.matrix.ecc = []) && !u.anySealed && decide (u.power.dev ≠ .rest) && decide (field l 0 4 % 2 ^ 18 = 3) &&
    decide (u.entryOff 3 + 32 ≤ 2 ^ 48) && opensBy u 13 (u.qWho 24) false (u.entryAddr 3) 32
def poolMeets (u : State) (l : List Byte) : Bool :=
  let ep := BitVec.ofNat 48 (field l 4 6)
  let ram := ramIn u 13 (u.qWho 24) true (2 ^ 30)
  let e := (u.setUpList (u.qPart 24) ep).entry (field l 0 4 % 2 ^ 18)
  decide (Config.poolBuffers = 4096) && (u.host.buffers.all fun b => decide (b.number < Config.poolBuffers)) &&
    ram (localAddr 0 (u.obj 0x3500 1)) (4096 * 4096) && ram (localAddr 0 (u.listOff (u.qPart 24) ep)) (64 + 16 * 65536) &&
    (decide (e.look = 0) || ram (localAddr 0 e.ring) ((e.look + 2) * (e.rsz * 64)))

theorem frame_meets (u : State) (l : List Byte) (h : frameMeets u l = true) : u.frameOpen 24 l := by
  simp only [frameMeets, Bool.and_eq_true, decide_eq_true_eq, Bool.not_eq_true'] at h
  unfold State.frameOpen
  rw [h.1.1.2]
  exact ⟨h.1.1.1.1.1, h.1.1.1.1.2, h.1.1.1.2, fun _ _ => ⟨h.1.2, opens_by _ _ _ _ _ _ h.2⟩⟩

theorem pool_meets (u : State) (l : List Byte) (h : poolMeets u l = true) : u.poolOpen 24 l := by
  simp only [poolMeets, Bool.and_eq_true, decide_eq_true_eq, List.all_eq_true, Bool.or_eq_true] at h
  unfold State.poolOpen
  refine ⟨h.1.1.1.2, ?_, ram_in _ _ _ _ _ _ _ h.1.2, fun hl => ram_in _ _ _ _ _ _ _ (h.2.resolve_left hl)⟩
  rw [h.1.1.1.1]
  exact ram_in _ _ _ _ _ _ _ h.1.1.2

/-- What the statement asks of an ingest of one record, and what Table HP-7 decides on it. -/
def judged (s : State) (batch : List Byte) : Option Verdict :=
  let d := descOf s 24
  let u := s.startRun 24 d
  let rest := batch.take (d.f 24 4)
  let l := slice rest 0 (Max.max 64 (roundUp (field rest 14 2) 64))
  if accepted s 24 (ingestRanges d) && decide (d.opc = 0x80) && decide (d.f 28 4 = 1) && s.isOn 48 && s.host.linkUp &&
      decide (Max.max 16 (field rest 14 2) ≤ rest.length) && frameMeets u l && poolMeets u l then some (u.verdict 24 l)
  else none

/-- Whether the queue's buffer has room for it; the queue before it waits; a batch that has come in part, and one that is
too short. -/
theorem test_ingest_hypotheses : judged (ingestQ true) (frame 3 8 2) = some .accepted ∧
    judged (ingestQ true ringed3) (frame 3 8 2) = some .accepted ∧
    judged (ingestQ true) (frame 3 7 2) = some .late ∧ judged (ingestQ true) (frame 3 8 20) = some .rejected ∧
    (ingestQ false).host.linkUp = false ∧ 15 < Max.max 16 (field (zeros 15) 14 2) ∧
    (descOf (ingestQ true) 24).f 24 4 = 64 := by decide +kernel

theorem test_buffer_ready : (ingestQ true).bufferReady 24 (frame 3 8 2) false ∧
    ¬ State.bufferReady { ingestQ true with host := { (ingestQ true).host with buffers := [], waiters := [25] } } 24
      (frame 3 8 2) false := by
  have h1 : ((ingestQ true).currentBuffer 24 (BitVec.ofNat 48 (field (frame 3 8 2) 4 6))).filter
      (fun b => decide (b.fill + field (frame 3 8 2) 14 2 ≤ 4096)) =
      some { number := 0, queue := 24, epoch := 8, fill := 64 } := by decide +kernel
  refine ⟨?_, ?_⟩
  · unfold State.bufferReady
    rw [h1]
    trivial
  · unfold State.bufferReady
    rintro ⟨h | h, -⟩
    · cases h
    · cases h

theorem test_ingest : ok (exec (.ingest 24 (frame 3 8 2)) (ingestQ true)) (fun t => ended t 24 0 0 1 &&
      decide (t.host.framesAccepted = 1) && decide (t.rd8 0x1000040 = 3)) = true ∧
    ok (exec (.ingest 24 (frame 3 7 2)) (ingestQ true)) (fun t => decide (t.host.framesLate = 1)) = true ∧
    ok (exec (.ingest 24 (frame 3 8 20)) (ingestQ true)) (fun t => decide (t.host.framesRejected = 1)) = true ∧
    ok (exec (.ingest 24 []) (ingestQ false)) (fun t => ended t 24 2 0xD01 0) = true := by decide +kernel

/-- The queue waits for a buffer with this record. -/
def grantQ : State :=
  let s := ingestQ true
  let u := (s.startRun 24 (descOf s 24)).mapRun 24 fun r => { r with rest := frame 3 8 2, left := 1, phase := .waiting }
  { u with host := { u.host with waiters := [24] } }

def grantMeets : Bool :=
  let l := slice (frame 3 8 2) 0 64
  decide (grantQ.host.waiters.head? = some 24) && !grantQ.freeBuffers.isEmpty && frameMeets grantQ l &&
    decide (grantQ.verdict 24 l = .accepted) && poolMeets grantQ l

set_option maxRecDepth 100000 in
theorem test_grant : grantMeets = true ∧
    ((grantQ.queue 24).run.map (·.left)) = some 1 ∧ (frame 3 8 2).length = 64 ∧
    (ingestQ true).host.waiters.head? ≠ some 24 ∧
    ok (exec (.bufferGrant 24) grantQ) (fun t => ended t 24 0 0 1 && decide (t.host.waiters = [])) = true := by
  decide +kernel

theorem test_link : ok (exec (.pcieLinkDown .failure) (ingestQ true)) (fun t => !t.host.linkUp &&
      decide (t.obj 0x701D 1 = 1)) = true ∧
    isNext (exec (.pcieLinkDown .powerManagement) run0) run0 = true ∧
    ok (exec (.pcieLinkUp 8 4) run0) (fun t => t.host.linkUp && decide (t.obj 0x3500 4 = 0x84)) = true ∧
    ok (exec .perstN (ingestQ true)) (fun t => !t.host.linkUp && t.power.perstLow) = true ∧
    ok (exec .functionLevelReset (ingestQ true)) (fun t => t.host.linkUp) = true := by decide +kernel

theorem test_dma_error : (grantQ.waitingRun 24 0x80).isSome = true ∧
    ((after (exec (.publish 28) (publishQ 4096 0))).waitingRun 28 0x60).isSome = true ∧
    ok (exec (.hostDmaError 24 .unsupported) grantQ) (fun t => ended t 24 2 0xD02 0) = true ∧
    ok (exec (.hostDmaError 28 .unsupported) (after (exec (.publish 28) (publishQ 4096 0)))) (fun t =>
      ended t 28 2 0xD02 0) = true := by decide +kernel

/-! ### Matrix -/

/-- An SX4 with a window on register space too, and a request of the thread of bed 1 before a port of the DRAM. -/
def open3 : State := withObjs open0 [(0x3200, 5, openWindow 3 (2 ^ 24))]
def reqOf (id len : Nat) (addr : W64) (op : Op) (o : Origin) : Request where
  id := id
  master := 1
  tid := 3
  part := 0
  port := open3.portOf 1 addr.toNat
  addr := addr
  len := len
  op := op
  arrived := 0
  qos := 4
  origin := o
def dram0 : TargetPort := open3.portOf 1 0x1004
def asked (len : Nat) (addr : W64) (op : Op) : State :=
  let s := open3.wrBytes 0x1004 [1, 2, 3, 4]
  { s with matrix := { s.matrix with requests := [reqOf 4 len addr op (.thread thA)], nextId := 5 } }

/-- Every piece of a short request, tried one by one. -/
def reachesBy (s : State) (r : Rq) (k : Nat) : Bool :=
  (List.range r.len).all fun i => (List.range (r.len - i)).all fun j =>
    decide (64 < (r.addr + i) % 64 + (j + 1)) || (decide (i ≠ 0) && decide ((r.addr + i) % 64 ≠ 0)) ||
      (decide (i + (j + 1) ≠ r.len) && decide ((r.addr + i + (j + 1)) % 64 ≠ 0)) ||
      decide (s.resolve { r with addr := r.addr + i, len := j + 1 } = .ok (.mem (k + i)))

theorem reaches_by (s : State) (r : Rq) (k : Nat) (h : reachesBy s r k = true) : s.reaches r k := by
  intro a n h1 h2 h3 h4 h5 h6
  simp only [reachesBy, List.all_eq_true, List.mem_range] at h
  have h7 := h (a - r.addr) (by omega) (n - 1) (by omega)
  rw [show r.addr + (a - r.addr) = a from by omega, show n - 1 + 1 = n from by omega] at h7
  simp only [Bool.or_eq_true, Bool.and_eq_true, decide_eq_true_eq] at h7
  rcases h7 with ((h7 | h7) | h7) | h7
  · omega
  · omega
  · omega
  · exact h7

/-- A port other than T7 with no word in error grants this request next, which meets c. -/
def granting (s : State) (p : TargetPort) (c : State → Request → Bool) : Bool :=
  match (s.atPort p).winner p with
  | none => false
  | some r => decide (p.target ≠ 7) && decide (s.matrix.ecc = []) && c ((s.atPort p).seenBy r) r

/-- In one line and over two, before a fence and admitted before one; an atomic; errors; a read of register space. -/
theorem test_grant_hypotheses :
    granting (asked 4 0x1004 .read) dram0 (fun v r => reachesBy v r.asks 0x1004) = true ∧
    granting (asked 8 0x103C .read) dram0 (fun v r => reachesBy v r.asks 0x103C) = true ∧
    granting (asked 4 0x1004 (.write [9, 9, 9, 9])) dram0 (fun v r => reachesBy v r.asks 0x1004 &&
      decide (regionOf r.addr.toNat ≠ 1)) = true ∧
    granting (asked 4 0x1004 (.atomic .add 1 0)) dram0 (fun v r =>
      decide (v.resolve r.asks = .ok (.mem 0x1004)) && atomicRegion (0x1004 / 2 ^ 48)) = true ∧
    granting (asked 4 0x40001004 .read) (open3.portOf 1 0x40001004) (fun v r => decide (1 ≤ r.len) &&
      decide (r.addr.toNat % 64 + r.len ≤ 64) && decide (v.resolve r.asks = .error (0x801, noWindow))) = true ∧
    granting (asked 4 (BitVec.ofNat 64 (localAddr 3 0x110600)) .read) (open3.portOf 1 (localAddr 3 0x110600)) (fun v r =>
      decide (r.addr.toNat % 64 + r.len ≤ 64) && decide (v.resolve r.asks = .ok (.reg 0x110600)) && regOk 0x110600 r.len) = true ∧
    open3.winner dram0 = none := by decide +kernel

/-- A request for chip 1 before T7, with a route and without. -/
def away (route : Nat) : State :=
  let s := asked 4 0x20000000001000 .read
  ((withObjs { s with matrix := { s.matrix with requests := s.matrix.requests.map fun r =>
    { r with port := open3.portOf 1 0x20000000001000 } } } [(0x3300, 4, route * 256)])).setLink 0 { state := .up }

theorem test_remote_grant : let p := open3.portOf 1 0x20000000001000
    p.target = 7 ∧ ((away 0x80).atPort p).winner p = (away 0x80).matrix.requests.head? ∧
    (away 0x80).matrix.requests.length = 1 ∧ (away 0x80).routePort 1 = some 0 ∧ (away 0).routePort 1 = none ∧
    ((away 0).atPort p).winner p = (away 0).matrix.requests.head? ∧
    ok (exec (.portGrant p) (away 0x80)) (fun t => decide (t.remote.length = 1) && decide (t.matrix.requests = [])) = true ∧
    ok (exec (.portGrant p) (away 0)) (fun t => decide (t.obj 0x701A 1 = 1) &&
      decide (t.matrix.responses.map (·.reply) = [.error 0x0A01])) = true := by decide +kernel

theorem test_grants : ok (exec (.portGrant dram0) (asked 4 0x1004 .read)) (fun t =>
      decide (t.matrix.responses.map (·.reply) = [.data [1, 2, 3, 4]])) = true ∧
    ok (exec (.portGrant dram0) (asked 4 0x1004 (.write [9, 9, 9, 8]))) (fun t => decide (t.rdBytes 0x1004 4 = [9, 9, 9, 8])) = true ∧
    ok (exec (.portGrant dram0) (asked 4 0x1004 (.atomic .add 0xFF 0))) (fun t =>
      decide (t.rdBytes 0x1004 4 = [0, 3, 3, 4]) && decide (t.matrix.responses.map (·.reply) = [.data [1, 2, 3, 4]])) = true := by
  decide +kernel

/-- Two requests at a port: the older one of two equal masters and IDs first. -/
theorem test_order : let s := asked 4 0x1004 .read
    ({ s with matrix := { s.matrix with requests := [reqOf 7 4 0x1004 .read (.thread thA), reqOf 6 4 0x1004 .read (.thread thA)] } } :
      State).winner dram0 = some (reqOf 6 4 0x1004 .read (.thread thA)) := by decide +kernel

/-- BAR4's window on region 0 for P2, enabled and not. -/
def bar4On : State := { open3 with host := { open3.host with bar4 := 0x82 } }

theorem test_bar4 : bar4On.hostReaches = true ∧ bar4On.host.bar4.toNat.testBit 7 = true ∧
    open3.host.bar4.toNat.testBit 7 = false ∧ (0x10 : W32).toNat % 1024 + 4 ≤ 1024 ∧
    ok (exec (.bar4Access 0x10 (.read 4)) open3) (fun t => decide (t.outputs.hostReplies = [.data [255, 255, 255, 255]])) = true ∧
    ok (exec (.bar4Access 0x10 (.read 4)) bar4On) (fun t => decide (t.matrix.requests.map (·.part) = [2])) = true := by
  decide +kernel

theorem test_window_write : open3.spaceOpen 11 deviceWide (0x00120000 + 32 * 63) 32 ∧ open3.locked = false ∧
    windowConsistent (windowMask (leNat (natLe (openWindow 4 4096) 32))) = true ∧
    windowConsistent (windowMask (leNat (natLe (openWindow 4 4097) 32))) = false ∧
    (natLe (openWindow 4 4096) 32).length = 32 ∧
    ok (exec (.windowWrite 11 63 0 (natLe (openWindow 4 4096) 32)) open3) (fun t =>
      decide (t.window 63 = openWindow 4 4096)) = true ∧
    ok (exec (.windowWrite 11 63 0 (natLe (openWindow 4 4097) 32)) open3) (fun t => decide (t.window 63 = open3.window 63) &&
      decide (t.matrix.lastError.code = 0x802)) = true := by
  unfold State.spaceOpen; decide +kernel

/-- The firmware configures the SX4. -/
def config0 : State := { open3 with power := { open3.power with dev := .config } }

theorem test_slices : config0.keeperServes = true ∧ config0.busyMasters = [] ∧
    ok (exec (.registerSlicesWrite true 11 0 (natLe (2 ^ 141 - 1) 18)) config0) (fun t =>
      decide (t.obj 0x3200 0x5B = 2 ^ 140 - 1)) = true ∧
    ok (exec (.registerSlicesWrite true 11 0 (zeros 18)) open3) (fun t => decide (t.kpp.result = 9)) = true := by decide +kernel

theorem test_write_back : ok (exec .cacheWriteBackStart open3) (fun t => t.matrix.writeBack &&
      ok (exec .cacheWriteBackDone { t with matrix := { t.matrix with cache := [(3, some ⟨5, true, false⟩)] } }) fun u =>
        !u.matrix.writeBack && decide (u.matrix.cache = [(3, some ⟨5, false, false⟩)])) = true := by decide +kernel

/-- 16 subchannels of 1 GiB (`DENSITY` 8). -/
def untrained : State := withObjs config0 [(0x3400, 1, 0xF), (0x3400, 3, 8)]

theorem test_training : untrained.power.dev = .config ∧
    ok (exec (.dramTraining 0xFFFF) untrained) (fun t => decide (t.obj 0x3400 5 = 2 ^ 34)) = true ∧
    ok (exec (.dramTraining 0xFFFE) untrained) (fun t => decide (t.obj 0x3400 5 = 0) && decide (t.power.dev = .fault) &&
      decide (t.obj 0x7019 3 = 1)) = true := by decide +kernel

/-- The cyclic partition is P0; its thread posts an alert. -/
def poster (n : Nat) : State :=
  let s := open3.setContext 67 ctxA
  { s with alerts := { s.alerts with ring := List.replicate n ⟨0, 0, 0, 0, 0⟩ } }

def posterRq : Rq where
  master := 1
  who := partByte ((poster 0).contextPart 67)
  id := 3
  addr := localAddr 3 0x150000
  len := 8
  rd := false
  wr := true

theorem test_alert : (poster 0).contextPart 67 = (poster 0).obj 0x6002 3 ∧ Thread.num thA = 67 ∧
    (poster 0).resolve posterRq = .ok (.reg 0x150000) ∧
    ok (exec (.alertPost thA 8 0xFFFFFFFFFFFFFFFF) (poster 0)) (fun t =>
      decide (t.alerts.ring.map (·.word) = [0xFFFF03FFFFFFFFFF])) = true := by decide +kernel

theorem test_alert_full : (poster 256).alerts.ring.length = 256 ∧
    ok (exec (.alertPost thA 8 1) (poster 256)) (fun t => decide (t.alerts.notLatched = 1)) = true := by decide +kernel

theorem test_register_write : (open3.hostReaches = true ∧ open3.locked = false) ∧
    (withObjs open3 [(0x3101, 25, memKey 23 0x8000)]).qDoorbell 24 = true ∧
    (withObjs open3 [(0x3101, 25, memKey 23 0x8000)]).spaceOpen 10
      (partByte ((withObjs open3 [(0x3101, 25, memKey 23 0x8000)]).qPart 24)) (0x110000 + 64 * 24) 4 ∧
    open3.spaceOpen 11 deviceWide (0x121000 + 13) 1 ∧
    ok (exec (.registerWrite .bar0 0x2000 (natLe 0x0400000000000085 8)) open3) (fun t =>
      decide (t.host.bar4 = 0x0400000000000085)) = true ∧
    ok (exec (.registerWrite .bar2 (24 * 2 ^ 16) [2, 0, 0, 0]) (withObjs open3 [(0x3101, 25, memKey 23 0x8000)])) (fun t =>
      decide ((t.queue 24).tail = 2)) = true ∧
    ok (exec (.registerWrite (.region3 11 none) (0x121000 + 13) [0xF5]) open3) (fun t => decide (t.obj 0x3200 0x4F = 5)) = true := by
  unfold State.spaceOpen; decide +kernel

theorem test_host_registers : ({ open3 with power := { open3.power with perstLow := true } } : State).hostReaches = false ∧
    ok (exec (.registerWrite (.config .msixControl) 0 [0, 0xC0]) open3) (fun t => t.host.msixEnable && t.host.functionMask) = true ∧
    ok (exec (.registerWrite (.bar0Read 8) 0x2000 []) bar4On) (fun t =>
      decide (t.outputs.hostReplies = [.data (natLe 0x82 8)])) = true ∧
    ok (exec (.registerWrite (.bar2Read 4) 0x40 []) open3) (fun t =>
      decide (t.outputs.hostReplies = [.data (zeros 4)])) = true := by decide +kernel

/-! ### Trellis -/

/-- Port 2 is UP, chip 5 lies behind it. -/
def trellis0 : State := (withObjs open3 [(0x3300, 4, 0x82 * 2 ^ 40)]).setLink 2 { state := .up }
def pkt (dest src : BitVec 7) (addr : BitVec 56) (len : BitVec 16) (data : List Byte) : Packet where
  dest := dest
  src := src
  part := 0
  error := false
  qos := 3
  tag := 0x77
  addr := addr
  len := len
  data := data
  atomic := .add
  operand := 0xFF
  compare := 0

theorem test_sequence : (trellis0.link 2).state = .up ∧ trellis0.inOrder 2 0 ∧ trellis0.routePort 5 = some 2 ∧
    ((trellis0.link 2).rxSeq - (0xFFF : BitVec 12)).toNat = 1 ∧ ((trellis0.link 2).rxSeq - (1 : BitVec 12)).toNat > 2048 ∧
    ok (exec (.rdReq 2 0xFFF (pkt 0 5 0x1000 4 [])) trellis0) (fun t => decide (t.obj 0x7051 3 = 1)) = true ∧
    ok (exec (.rdReq 2 1 (pkt 0 5 0x1000 4 [])) trellis0) (fun t => (t.link 2).gap &&
      decide (t.outputs.controls.map (fun x => (x.2.nak, x.2.ack)) = [(true, 0)])) = true ∧
    ok (exec (.rdReq 2 0 (pkt 5 6 0x1000 4 [])) trellis0) (fun t =>
      decide ((t.link 2).replay.map (·.body) = [.rdReq (pkt 5 6 0x1000 4 [])])) = true := by
  unfold State.inOrder; decide +kernel

/-- A port whose credits of VC0 are used up keeps a forwarded packet. -/
def noCredit : State := trellis0.setLink 2 { state := .up, credits := [0, 96, 288, 32] }

theorem test_queued : ok (exec (.wrReq 2 0 (pkt 5 6 0x1000 4 [1, 2, 3, 4])) noCredit) (fun t =>
    decide ((t.link 2).queued.length = 1)) = true := by decide +kernel

def bytes0 : State := trellis0.wrBytes 0x1000 [1, 2, 3, 4]

/-- An arriving request finds its place, computed. -/
def arrivesBy (s : State) (p : Packet) (rd wr : Bool) (k : Nat) : Bool :=
  decide (p.dest = s.chip) && s.isOn 1 && decide (s.matrix.ecc = []) &&
    (if rd && wr then decide (s.resolve (arrivalRq p) = .ok (.mem k))
     else reachesBy s { arrivalRq p with rd, wr } k && decide (regionOf p.addr.toNat ≠ 1))

theorem arrives_by (s : State) (p : Packet) (rd wr : Bool) (k : Nat) (h : arrivesBy s p rd wr k = true) :
    s.arrives p rd wr k := by
  unfold arrivesBy at h
  rw [Bool.and_eq_true, Bool.and_eq_true, Bool.and_eq_true, decide_eq_true_eq, decide_eq_true_eq] at h
  refine ⟨h.1.1.1, h.1.1.2, h.1.2, ?_⟩
  have h2 := h.2
  split at h2
  · rw [if_pos (by assumption)]
    exact of_decide_eq_true h2
  · rw [if_neg (by assumption)]
    rw [Bool.and_eq_true, decide_eq_true_eq] at h2
    exact ⟨reaches_by _ _ _ h2.1, fun _ hr => absurd hr h2.2⟩

/-- Over two lines too, and with M9's domain off. -/
theorem test_served_hypotheses : bytes0.inOrder 2 0 ∧ arrivesBy bytes0 (pkt 0 5 0x1000 4 []) true false 0x1000 = true ∧
    arrivesBy bytes0 (pkt 0 5 0x103C 8 []) true false 0x103C = true ∧
    arrivesBy bytes0 (pkt 0 5 0x1000 4 [9, 9, 9, 8]) false true 0x1000 = true ∧
    arrivesBy bytes0 (pkt 0 5 0x1000 4 []) true true 0x1000 = true ∧ bytes0.routePort 6 = none ∧
    ({ bytes0 with power := { bytes0.power with domains := [(1, .off)] } } : State).isOn 1 = false := by
  unfold State.inOrder; decide +kernel

theorem test_served : ok (exec (.bulkRd 2 0 (pkt 0 5 0x1000 4 [])) bytes0) (fun t =>
      decide ((t.link 2).replay.map (·.body) = [.rdRsp (replyPacket (pkt 0 5 0x1000 4 []) 0 [1, 2, 3, 4])])) = true ∧
    ok (exec (.wrReq 2 0 (pkt 0 5 0x1000 4 [9, 9, 9, 8])) bytes0) (fun t => decide (t.rdBytes 0x1000 4 = [9, 9, 9, 8])) = true ∧
    ok (exec (.atReq 2 0 (pkt 0 5 0x1000 4 [])) bytes0) (fun t => decide (t.rdBytes 0x1000 4 = [0, 3, 3, 4])) = true ∧
    ok (exec (.rdReq 2 0 (pkt 0 6 0x1000 4 [])) bytes0) (fun t => decide (t.obj 0x7054 1 = 1)) = true := by decide +kernel

/-- The thread waits for a response to tag 0x77 from chip 5. -/
def awaitsRemote : State := { trellis0 with remote := [⟨0x77, 0, 2, 5, 0x00A0000000001000, 1, .request 9 (.thread thA)⟩] }

theorem test_response : awaitsRemote.remote.find? (fun y => decide (y.tag = 0x77)) =
      some ⟨0x77, 0, 2, 5, 0x00A0000000001000, 1, .request 9 (.thread thA)⟩ ∧ awaitsRemote.inOrder 2 0 ∧
    ok (exec (.rdRsp 2 0 (pkt 0 5 0x1000 4 [1, 2, 3, 4])) awaitsRemote) (fun t =>
      decide (t.matrix.responses = [⟨9, .thread thA, 7, .data [1, 2, 3, 4]⟩])) = true ∧
    ok (exec (.wrRsp 2 0 (pkt 0 5 0x1000 0 [])) trellis0) (fun t => decide (t.obj 0x7054 2 = 1)) = true := by
  unfold State.inOrder; decide +kernel

theorem test_remote_timeout : ok (exec (.remoteTimeout 0x77) awaitsRemote) (fun t => decide (t.remote = []) &&
      decide (t.matrix.responses = [⟨9, .thread thA, 7, .error 0xA04⟩])) = true ∧
    (∀ y ∈ trellis0.remote, y.tag ≠ 0x77) ∧ isNext (exec (.remoteTimeout 0x77) trellis0) trellis0 = true := by decide +kernel

/-- A port in each state. -/
def portIn (k : LinkState) : State := withObjs (open3.setLink 2 { state := k }) [(0x3300, 1, 4)]

theorem test_ports : ok (exec (.linkTrained 2) (portIn .training)) (fun t => decide ((t.link 2).state = .init)) = true ∧
    ok (exec (.trainingTimeout 2) (portIn .training)) (fun t => decide ((t.link 2).state = .down) &&
      decide (t.obj 0x701A 1 = 1)) = true ∧
    ok (exec (.lockLoss 2) (portIn .up)) (fun t => decide ((t.link 2).state = .down)) = true ∧
    ok (exec (.retrain 2) (portIn .down)) (fun t => decide ((t.link 2).state = .training)) = true ∧
    ok (exec (.portEnable 8) (portIn .up)) (fun t => decide ((t.link 2).state = .down) &&
      decide ((t.link 3).state = .training)) = true ∧
    (portIn .down).remote = [] ∧ ((portIn .down).obj 0x3300 1).testBit 2 = true ∧ (portIn .up).keeperServes = true := by
  decide +kernel

/-- In INIT with its probes 0 to 63 out, 63 of them back after 20 cycles and the far side's echoed; the flit that brings the
last one, with chip 5's identity, or this SX4's own. -/
def inInit : State := open3.setLink 2
  { state := .init, asked := List.range 64, peerSizes := [96, 96, 288, 32],
    probes := (List.range 63).map (fun c => (c, 20)), heard := List.range 64 }
def initFlit (c : BitVec 7) : ControlFlit :=
  { ack := 0, nak := false, returned := [], init := some (c, 1), echoes := [(63, 0)], arrival := 83 }

theorem test_init : (inInit.link 2).state = .init ∧ (5 : BitVec 7) ≠ inInit.chip ∧ (0 : BitVec 7) = inInit.chip ∧
    (((((inInit.link 2).takeEchoes (initFlit 5)).probes.take 64).map (·.2)).sum % 128 ≠ 64) ∧
    64 ≤ ((inInit.link 2).takeEchoes (initFlit 5)).probes.length ∧ 64 ≤ (inInit.link 2).heard.length ∧
    ok (exec (.controlFlit 2 (initFlit 5)) inInit) (fun t => decide ((t.link 2).state = .up) &&
      decide (t.obj 0x3300 0x12 = 10)) = true ∧
    ok (exec (.controlFlit 2 (initFlit 0)) inInit) (fun t => decide (t.obj 0x701A 1 = 1)) = true := by decide +kernel

/-- An echo of an own probe, a probe of the far side, and the same again. -/
theorem test_probes : ((portIn .init).link 2).peer = none ∧ (63 : Nat) ∈ (inInit.link 2).asked ∧
    (∀ x ∈ (inInit.link 2).probes, x.1 ≠ 63) ∧ (7 : Nat) ∉ ((portIn .init).link 2).heard ∧
    ok (exec (.controlFlit 2 { ack := 0, nak := false, returned := [], echoes := [(63, 4)], arrival := 90 }) inInit) (fun t =>
      decide ((t.link 2).probes.getLast? = some (63, 23))) = true ∧
    ok (exec (.controlFlit 2 { ack := 0, nak := false, returned := [], probe := some 7 }) (portIn .init)) (fun t =>
      decide ((t.link 2).heard = [7]) && decide (t.outputs.controls.map (·.2.echoes) = [[(7, 0)]])) = true ∧
    ok (exec (.controlFlit 2 { ack := 0, nak := false, returned := [], probe := some 7 }) inInit) (fun t =>
      decide (t.outputs.controls = [])) = true := by decide +kernel

/-- Nothing of this SX4 stands in the port's buffers; or a read that waits does. -/
theorem holds_none (s : State) (l : Nat) (h : s.remote = []) : s.holdsNoOwn l := by
  intro b _ tag _ y hy
  rw [h] at hy
  cases hy

def ownRead : State := awaitsRemote.setLink 2 { state := .up, replay := [⟨0, .rdReq (pkt 5 0 0x1000 4 []), 0⟩] }

theorem test_own_lost : (ownRead.link 2).queued = [] ∧
    ownRead.ownTag (.rdReq (pkt 5 0 0x1000 4 [])) = some 0x77 ∧
    (portIn .up).remote = [] ∧ trellis0.remote = [] ∧
    ok (exec (.lockLoss 2) ownRead) (fun t =>
      decide (t.matrix.responses = [⟨9, .thread thA, 7, .error 0x0A01⟩])) = true := by decide +kernel

/-- Two read requests are unacknowledged. -/
def unacked : State := trellis0.setLink 2
  { state := .up, txSeq := 2, replay := [⟨0, .rdReq (pkt 5 0 0x1000 4 []), 0⟩, ⟨1, .rdReq (pkt 5 0 0x2000 4 []), 0⟩],
    credits := [94, 96, 288, 32] }

theorem test_ack : (unacked.link 2).queued = [] ∧ ((1 : BitVec 12) - (unacked.link 2).ack).toNat = 1 ∧
    (1 : Nat) ≤ (unacked.link 2).unacked ∧ (unacked.link 2).replay ≠ [] ∧
    (unacked.link 2).lastNak ≠ some 0 ∧ unacked.remote = [] ∧
    ok (exec (.controlFlit 2 { ack := 1, nak := false, returned := [1, 0, 0, 0]}) unacked) (fun t =>
      decide ((t.link 2).replay.map (·.seq) = [1]) && decide ((t.link 2).credits = [95, 96, 288, 32])) = true := by
  decide +kernel

theorem test_replay : (unacked.link 2).replays < 8 ∧ ok (exec (.replayTimeout 2) unacked) (fun t =>
      decide (t.outputs.links.map (·.2.seq) = [0, 1]) && decide (t.obj 0x7050 3 = 1)) = true ∧
    ok (exec (.replayTimeout 2) (unacked.setLink 2 { unacked.link 2 with replays := 8 })) (fun t =>
      decide ((t.link 2).state = .down) && decide (t.obj 0x701A 2 = 1)) = true := by decide +kernel

def goodAudit : AuditMsg := { held := [96, 96, 288, 31], returned := [0, 0, 0, 0] }

theorem test_audit : (trellis0.link 2).canSend (.audit { held := [], returned := [] }) = true ∧
    (∀ c, c < 4 → goodAudit.held.getD c 0 + ((vcAdd (trellis0.link 2).returned 3 1).getD c 0 - goodAudit.returned.getD c 0) =
      BitVec.ofNat 16 (vcSize c)) ∧
    (∃ c, c < 4 ∧ ([] : List (BitVec 16)).getD c 0 + ((vcAdd (trellis0.link 2).returned 3 1).getD c 0 -
      ([] : List (BitVec 16)).getD c 0) ≠ BitVec.ofNat 16 (vcSize c)) ∧
    ok (exec (.auditSend 2) trellis0) (fun t => decide ((t.link 2).replay.map (·.body) =
      [.audit { held := [96, 96, 288, 31], returned := [0, 0, 0, 0] }])) = true ∧
    ok (exec (.audit 2 0 goodAudit) trellis0) (fun t => decide (t.obj 0x7053 3 = 1)) = true ∧
    ok (exec (.audit 2 0 { held := [], returned := [] }) trellis0) (fun t => decide ((t.link 2).state = .down)) = true ∧
    ok (exec (.codewordUncorrectable 2) trellis0) (fun t => decide (t.obj 0x7052 3 = 1)) = true :=
  ⟨by decide +kernel, by decide +kernel, ⟨0, by decide +kernel⟩, by decide +kernel, by decide +kernel, by decide +kernel,
    by decide +kernel⟩

/-- A `NAK` for all of it, and the same again. -/
theorem test_nak : let nak : ControlFlit := { ack := 0, nak := true, returned := [] }
    (nak.ack - (unacked.link 2).ack).toNat = 0 ∧
    ok (exec (.controlFlit 2 nak) unacked) (fun t => decide (t.outputs.links.map (·.2.seq) = [0, 1]) &&
      ok (exec (.controlFlit 2 nak) t) fun u => decide (u.outputs.links.length = 2) &&
        decide ((u.link 2).lastNak = some 0)) = true := by decide +kernel

/-! ### Group commits and recovery -/

/-- P0's step of epoch 7 is open and judged, its group chips 0 and 5, its coordinator this one or chip 5. -/
def group0 (coord : BitVec 7) (votes : List (BitVec 7 × BitVec 48)) (doubt : Bool) : State :=
  let st : Step := { isOpen := true, epoch := 7, judged := some { epoch := 7, commitEpoch := 7, complete := [], incomplete := [], inDoubt := doubt },
                     votes := votes, window := decide (coord = 0), group := 0x21, coordinator := coord }
  { trellis0 with streams := { trellis0.streams with steps := [(0, st)] } }

def msg5 (e : BitVec 48) (d : Decision) : StepMsg := { dest := 0, src := 5, part := 0, epoch := e, decision := d }

theorem test_group_hypotheses : (group0 0 [(0, 7)] false).inOrder 2 0 ∧ ((group0 0 [(0, 7)] false).step1 0).isOpen = true ∧
    ((group0 0 [(0, 7)] false).step1 0).judged.isSome = true ∧ ((group0 0 [(0, 7)] false).step1 0).window = true ∧
    groupChips 0x21 = [0, 5] := by
  unfold State.inOrder; decide +kernel

theorem test_votes : ok (exec (.vote 2 0 (msg5 7 .undecided)) (group0 0 [(0, 7)] false)) (fun t =>
      decide ((t.step1 0).outcome = some (7, .flip)) && !(t.step1 0).isOpen) = true ∧
    ok (exec (.vote 2 0 (msg5 7 .undecided)) (group0 0 [] false)) (fun t => (t.step1 0).isOpen &&
      decide ((t.step1 0).votes = [(5, 7)])) = true ∧
    ok (exec (.voteWindowExpire 0) (group0 0 [(0, 7)] false)) (fun t =>
      decide ((t.step1 0).outcome = some (7, .void)) && decide (t.obj 0x4020 3 = 1)) = true := by decide +kernel

theorem test_decide : ok (exec (.decide 2 0 (msg5 7 .flip)) (group0 5 [] false)) (fun t =>
      decide ((t.step1 0).outcome = some (7, .flip))) = true ∧
    ok (exec (.decide 2 0 (msg5 7 .void)) (group0 5 [] false)) (fun t => decide (t.obj 0x7012 5 = 1)) = true ∧
    ok (exec (.decide 2 0 (msg5 6 .void)) (group0 5 [] false)) (fun t => (t.step1 0).isOpen) = true := by decide +kernel

theorem test_doubt : (group0 5 [] false).routePort 5 = some 2 ∧ (trellis0.step1 0).judged = none ∧
    ((group0 5 [] false).step1 0).outcome = none ∧ ((group0 5 [] false).step1 0).coordinator ≠ (group0 5 [] false).chip ∧
    ok (exec (.decisionDeadline 0) (group0 5 [] false)) (fun t =>
      decide ((t.link 2).replay.map (·.body) = [.query ⟨5, 0, 0, 7, .undecided⟩])) = true ∧
    ok (exec (.query 2 0 (msg5 7 .undecided)) (group0 5 [] false)) (fun t =>
      decide ((t.link 2).replay.map (·.body) = [.answer ⟨5, 0, 0, 7, .undecided⟩])) = true ∧
    ok (exec (.answer 2 0 (msg5 7 .flip)) (group0 5 [] true)) (fun t => decide ((t.step1 0).outcome = some (7, .flip))) = true ∧
    ok (exec (.queryTimeout 0) (group0 5 [] true)) (fun t => decide ((t.step1 0).outcome = some (7, .void))) = true := by
  decide +kernel

/-- A step that is over with VOID answers a query so. -/
def decided : State := { trellis0 with streams := { trellis0.streams with steps := [(0, { outcome := some (7, .void) })] } }

theorem test_answer_decided : (decided.step1 0).outcome = some (7, .void) ∧
    ok (exec (.query 2 0 (msg5 7 .undecided)) decided) (fun t =>
      decide ((t.link 2).replay.map (·.body) = [.answer ⟨5, 0, 0, 7, .void⟩])) = true := by decide +kernel

/-- A coordinator whose step is not open answers VOID, and sends it to the group. -/
theorem test_query_closed : let s := withObjs trellis0 [(0x3300, 0x30, 0x21)]
    (s.step1 0).isOpen = false ∧ (s.step1 0).outcome = none ∧ s.obj 0x3300 0x38 = s.chip.toNat ∧
    ok (exec (.query 2 0 (msg5 7 .undecided)) s) (fun t => decide ((t.step1 0).outcome = some (7, .void)) &&
      decide ((t.link 2).replay.map (·.body) = [.answer ⟨5, 0, 0, 7, .void⟩, .decide ⟨5, 0, 0, 7, .void⟩] ∨
        (t.link 2).replay.map (·.body) = [.decide ⟨5, 0, 0, 7, .void⟩, .answer ⟨5, 0, 0, 7, .void⟩])) = true := by
  decide +kernel

/-- `UNDECIDED` from the only other participant ends a doubt with VOID; a query for a step that the own chip coordinates
voids it. -/
theorem test_undecided : (∀ c ∈ groupChips 0x21, c = 0 ∨ c = 5) ∧
    ok (exec (.answer 2 0 (msg5 7 .undecided)) (group0 5 [] true)) (fun t =>
      decide ((t.step1 0).outcome = some (7, .void))) = true ∧
    ok (exec (.query 2 0 (msg5 7 .undecided)) (group0 0 [] false)) (fun t =>
      decide ((t.step1 0).outcome = some (7, .void)) && !(t.step1 0).isOpen) = true := by decide +kernel

/-- In CONFIG and recovery mode, with a table of Free entries. -/
def recovering : State :=
  { withObjs config0 [(0x3300, 0x20, 1), (0x4000, 1, 0x100000)] with streams := { tableSet := true } }

theorem test_recovery : recovering.keeperServes = true ∧ recovering.objOn 0x3300 0x20 = true ∧ recovering.power.dev = .config ∧
    recovering.streams.tableSet = true ∧ (recovering.entry 262143).life = .free ∧
    (recovering.entry 262143).gen ≤ 9 ∧
    ok (exec (.recoveryEntry 262143 9) recovering) (fun t => decide (t.entry 262143 = { life := .sealed, gen := 9 })) = true ∧
    ok (exec (.recoveryEntry 262144 9) recovering) (fun t => decide (t.kpp.result = 9)) = true := by decide +kernel

/-! ### Partitions -/

/-- An SX4 without a slot area. A partition 1 that overlaps P0's contexts. -/
def lockable : State := withObjs run0 [(0x4010, 3, 0)]
def overlapping : State := withObjs run0 [(0x3010, 2, 1)]
def scrubbing0 : State := { run0 with scrubs := [{ engine := 4, spans := [(memKey 1 0, 0x10000)], bytes := 0x10000 }] }

theorem test_lock : lockable.keeperServes = true ∧ lockable.lockFail = none ∧ lockable.scrubs = [] ∧ scrubbing0.scrubs ≠ [] ∧
    overlapping.scrubs = [] ∧ overlapping.lockFail = some (1, some 0) ∧
    ok (exec .partitionLock lockable) (fun t => t.locked && ok (exec .partitionUnlock t) fun u => !u.locked) = true ∧
    ok (exec .partitionLock scrubbing0) (fun t => !t.locked && decide (t.kpp.result = 0xB)) = true ∧
    ok (exec .partitionLock overlapping) (fun t => !t.locked && decide (t.obj 0x701B 1 = 1)) = true := by decide +kernel

/-- Context 0, freed by P0, is given to P1; its counter and registers. -/
def freed : State := (withObjs run0 [(0x3000, 2, 2 ^ 256 - 2)]).setContext 0 { regs := [(5, 7)] }

theorem test_reassignment : partObjectBytes 2 = some 32 ∧ (1 : Nat) < 256 ^ 32 ∧ partValueOk 2 1 = true ∧
    freed.given 1 2 1 = [0] ∧ freed.resourceScrubbing 2 0 = false ∧ freed.inUse 2 0 = false ∧ freed.locked = false ∧
    (freed.setContext 0 ctxA).inUse 2 0 = true ∧ (freed.setContext 0 ctxA).given 1 2 1 = [0] ∧
    ok (exec (.reassignment 1 2 1) freed) (fun t => decide ((t.context 0).regs = []) && decide (t.partObj 1 2 = 1)) = true ∧
    ok (exec (.reassignment 1 2 1) (freed.setContext 0 ctxA)) (fun t => decide (t.kpp.result = 9)) = true ∧
    ok (exec (.reassignment 1 2 1) (withObjs freed [(0x1201, 0, 1)])) (fun t => decide (t.kpp.result = 7)) = true := by
  decide +kernel

/-- State Store region 0 is being scrubbed, freed by P0 and asked for by P1. -/
def scrubbed0 : State := withObjs scrubbing0 [(0x3000, 4, 2 ^ 192 - 2)]

theorem test_reassignment_scrubbing : partObjectBytes 4 = some 24 ∧ partValueOk 4 1 = true ∧ scrubbed0.given 1 4 1 = [0] ∧
    scrubbed0.resourceScrubbing 4 0 = true ∧
    ok (exec (.reassignment 1 4 1) scrubbed0) (fun t => decide (t.kpp.result = 0xB) && decide (t.obj 0x701B 2 = 1)) = true := by
  decide +kernel

theorem test_scrub_done : (scrubbing0.wrBytes (memKey 1 0xFFFF) [7]).scrubs.find? (fun c => decide (c.engine = 4)) =
      some { engine := 4, spans := [(memKey 1 0, 0x10000)], bytes := 0x10000 } ∧
    ok (exec (.scrubDone 4) (scrubbing0.wrBytes (memKey 1 0xFFFF) [7, 8])) (fun t => decide (t.scrubs = []) &&
      decide (t.rd8 (memKey 1 0xFFFF) = 0) && decide (t.rd8 (memKey 1 0x10000) = 8)) = true := by decide +kernel

theorem test_audit_mark : ok (exec .auditMark (withObjs run0 [(0x7060, 2, 5)])) (fun t => decide (t.obj 0x7060 2 = 0) &&
    decide (t.kpp.result = 0)) = true := by decide +kernel

/-! ### Kwekoash Parameter Protocol -/

/-- A request of mailbox client 1 with transaction 5 for this SX4. -/
def kreq (i j n : Nat) (l : List Byte) : KppRequest where
  transport := .mailbox
  client := 1
  txn := 5
  tgt := 0
  index := BitVec.ofNat 16 i
  sub := BitVec.ofNat 8 j
  len := BitVec.ofNat 8 n
  payload := l
  length := 256

def key1 : ClientKey := { chip := 0, transport := .mailbox, client := 1 }

/-- Its entry exists, with this transfer. -/
def client1 (t : Option Transfer) : State :=
  { withObjs run0 [(0x1102, 0, 0)] with kpp := { clients := [{ key := key1, transfer := t }] } }

/-- The hypotheses Taken, decided. -/
def takes (s : State) (cmd : BitVec 8) (r : KppRequest) : Bool :=
  let h := s.holdOf cmd r
  decide (r.transport = .mailbox) && s.transportServed .mailbox && decide (s.power.dev ≠ .rest) && !malformed h &&
    decide (r.tgt.toNat = s.chip.toNat) && decide (s.kpp.deferred = none) && decide (s.kpp.waiting = []) &&
    (match s.client h.key with
      | some c => decide (c.running = none) && c.cache.all fun x => decide (x.txn ≠ r.txn)
      | none => false)

/-- What check 2 to 5 answer, as a code; 0 for a row. -/
def checkCode (s : State) (cmd : BitVec 8) (r : KppRequest) (w : Bool) : Nat :=
  match (s.executing (s.holdOf cmd r)).checked key1 r.index.toNat r.sub.toNat w with
  | .ok _ => 0
  | .error c => c

/-- A write of a value that is accepted and changes neither the Keeper nor the power of the SX4. -/
def putsOk (s : State) (r : KppRequest) (l : List Byte) : Bool :=
  let u := s.executing (s.holdOf 2 r)
  let p := u.objPut r.index.toNat r.sub.toNat l
  decide (p.2 = 0) && decide (p.1.kpp = u.kpp) && decide (p.1.power = u.power) &&
    decide (p.1.streams.clearing = u.streams.clearing) && u.objPowered r.index.toNat r.sub.toNat

/-- With no word in error the Keeper reaches what it holds itself. -/
theorem reaches_own (u : State) (i j : Nat) (h : u.matrix.ecc = []) (hi : i ≠ 0x2100 ∧ i ≠ 0x2101 ∧ i ≠ 0x3200) :
    u.keeperReaches i j = (u, true) := by
  unfold State.keeperReaches State.eccRead
  simp [h, hi.1, hi.2.1, hi.2.2]

/-- The request's object is powered and the Keeper reaches it. -/
def keeps (s : State) (cmd : BitVec 8) (r : KppRequest) : Bool :=
  let u := s.executing (s.holdOf cmd r)
  u.objPowered r.index.toNat r.sub.toNat && decide (u.matrix.ecc = [])

/-- Object 0x1102:00, the heartbeat's period, and an object that is not there. -/
theorem test_kpp_hypotheses : takes (client1 none) 1 (kreq 0x1102 0 0 []) = true ∧
    takes (client1 none) 2 (kreq 0x1102 0 2 [7, 0]) = true ∧ checkCode (client1 none) 1 (kreq 0x1102 0 0 []) false = 0 ∧
    checkCode (client1 none) 2 (kreq 0x1102 0 2 [7, 0]) true = 0 ∧ checkCode (client1 none) 1 (kreq 0x1FFF 0 0 []) false = 1 ∧
    checkCode (client1 none) 2 (kreq 0x1FFF 0 2 [7, 0]) true = 1 ∧ putsOk (client1 none) (kreq 0x1102 0 2 [7, 0]) [7, 0] = true ∧
    ((client1 none).objBytes 0x1102 0).length = 2 ∧ keeps (client1 none) 1 (kreq 0x1102 0 0 []) = true ∧
    keeps (client1 none) 2 (kreq 0x1102 0 2 [7, 0]) = true := by decide +kernel

/-- A write of the least and the largest value of object 0x1105:02, and of the ones beyond; of too many bytes; of an object
whose domain is off; a read of one that the matrix does not reach. -/
theorem test_write_hypotheses : (0x1105, 2, 1, 60000) ∈ plainObjects ∧
    (∀ v ∈ [0, 1, 60000, 60001], takes (client1 none) 2 (kreq 0x1105 2 2 (natLe v 2)) = true) ∧
    checkCode (client1 none) 2 (kreq 0x1105 2 2 (natLe 1 2)) true = 0 ∧
    keeps (client1 none) 2 (kreq 0x1105 2 2 (natLe 1 2)) = true ∧
    ok (exec (.write (kreq 0x1105 2 2 (natLe 60000 2))) (client1 none)) (fun t => decide (t.obj 0x1105 2 = 60000)) = true ∧
    ok (exec (.write (kreq 0x1105 2 2 (natLe 60001 2))) (client1 none)) (fun t =>
      decide (t.kpp.mailboxResponse.getLast? = some 6)) = true := by decide +kernel

theorem test_read : ok (exec (.read (kreq 0x1102 0 0 [])) ((client1 none).setObj 0x1102 0 0x1234)) (fun t =>
      decide (t.kpp.mailboxResponse = [0x81, 1, 5, 0, 2, 0x11, 0, 2, 0x34, 0x12]) && t.kpp.respValid) = true ∧
    ok (exec (.read (kreq 0x1FFF 0 0 [])) (client1 none)) (fun t =>
      decide (t.kpp.mailboxResponse = [0xC1, 1, 5, 0, 0xFF, 0x1F, 0, 1, 1])) = true := by decide +kernel

theorem test_write : ok (exec (.write (kreq 0x1102 0 2 [7, 0])) (client1 none)) (fun t =>
      decide (t.kpp.mailboxResponse = [0x82, 1, 5, 0, 2, 0x11, 0, 0]) && decide (t.obj 0x1102 0 = 7)) = true ∧
    ok (exec (.write (kreq 0x1FFF 0 2 [7, 0])) (client1 none)) (fun t =>
      decide (t.kpp.mailboxResponse = [0xC2, 1, 5, 0, 0xFF, 0x1F, 0, 1, 1])) = true := by decide +kernel

/-- The route table, 128 bytes, is read and written in three segments; the neighbours, 8 bytes, in one. -/
def readT (n : Nat) : Transfer := { isWrite := false, index := 0x3300, sub := 4, total := 128, bytes := zeros n }
def writeT : Transfer := { isWrite := true, index := 0x3300, sub := 4, total := 128, bytes := zeros 72 }

theorem test_segment_hypotheses : takes (client1 none) 3 (kreq 0x3300 4 64 []) = true ∧
    checkCode (client1 none) 3 (kreq 0x3300 4 64 []) false = 0 ∧ (client1 none).transfer key1 = none ∧
    ((client1 none).objBytes 0x3300 4).length = 128 ∧ ((client1 none).objBytes 0x3300 3).length = 8 ∧
    checkCode (client1 none) 3 (kreq 0x3300 3 64 []) false = 0 ∧
    OpenOn (client1 (some (readT 76))) ((client1 none).holdOf 3 (kreq 0x3300 4 128 [])) (readT 76) ∧
    checkCode (client1 none) 4 (kreq 0x3300 4 (64 + 56) []) true = 0 ∧
    OpenOn (client1 (some writeT)) ((client1 none).holdOf 4 (kreq 0x3300 4 (192 + 56) [])) writeT ∧
    keeps (client1 none) 3 (kreq 0x3300 4 64 []) = true ∧
    putsOk (client1 none) (kreq 0x3300 4 (192 + 56) []) (zeros 128) = true := by unfold OpenOn; decide +kernel

theorem test_read_seg : ok (exec (.readSeg (kreq 0x3300 4 64 [])) (client1 none)) (fun t =>
      decide (t.kpp.mailboxResponse.take 12 = [0x83, 1, 5, 0, 0, 0x33, 4, 0x78, 128, 0, 0, 0]) &&
      decide ((t.transfer key1).map (·.bytes.length) = some 76)) = true ∧
    ok (exec (.readSeg (kreq 0x3300 4 128 [])) (client1 (some (readT 76)))) (fun t =>
      decide ((t.transfer key1).map (·.bytes.length) = some 20) && decide (t.kpp.mailboxResponse.length = 64)) = true ∧
    ok (exec (.readSeg (kreq 0x3300 4 128 [])) (client1 (some (readT 20)))) (fun t =>
      decide (t.transfer key1 = none) && decide (t.kpp.mailboxResponse.getD 7 0 = 0xD4)) = true ∧
    ok (exec (.readSeg (kreq 0x3300 3 64 [])) (client1 none)) (fun t =>
      decide (t.kpp.mailboxResponse.getD 7 0 = 0xCC)) = true := by decide +kernel

theorem test_write_seg : ok (exec (.writeSeg (kreq 0x3300 4 (64 + 56) (natLe 128 4 ++ zeros 52))) (client1 none)) (fun t =>
      decide ((t.transfer key1).map (fun x => (x.total, x.bytes.length)) = some (128, 52))) = true ∧
    ok (exec (.writeSeg (kreq 0x3300 4 (192 + 56) (zeros 55 ++ [0x82]))) (client1 (some writeT))) (fun t =>
      decide (t.transfer key1 = none) && decide (t.route 127 = 0x82)) = true := by decide +kernel

theorem test_abort_release : takes (client1 (some writeT)) 5 (kreq 0 0 0 []) = true ∧
    takes (client1 none) 6 (kreq 0 0 0 []) = true ∧
    ok (exec (.segAbort (kreq 0 0 0 [])) (client1 (some writeT))) (fun t => decide (t.transfer key1 = none) &&
      decide (t.kpp.mailboxResponse.getD 0 0 = 0x85)) = true ∧
    ok (exec (.kppRelease (kreq 0 0 0 [])) (client1 none)) (fun t => decide (t.client key1 = none)) = true := by decide +kernel

theorem test_client_timeouts : (client1 (some writeT)).client key1 = some { key := key1, transfer := some writeT } ∧
    ok (exec (.clientIdleTimeout key1) (client1 none)) (fun t => decide (t.client key1 = none)) = true ∧
    ok (exec (.segmentTimeout key1) (client1 (some writeT))) (fun t => decide (t.transfer key1 = none)) = true ∧
    (let s : State := { run0 with kpp := { clients := [{ key := key1, running := some 4 }] } }
     isNext (exec (.clientIdleTimeout key1) s) s = true) := by decide +kernel

/-- The request buffer holds the READ of object 0x1102:00. -/
def mailboxed : State := { client1 none with kpp := { (client1 none).kpp with
  mailboxRequest := [1, 1, 5, 0, 2, 0x11, 0, 0] ++ zeros 56 } }

theorem test_mailbox : mailboxed.hostReaches = true ∧ mailboxed.mailboxFrame.1 = 1 ∧
    ok (exec .mailboxDoorbell mailboxed) (fun t => decide (t.kpp.mailboxResponse = [0x81, 1, 5, 0, 2, 0x11, 0, 2, 0, 0])) =
      true := by decide +kernel

/-- Chip 5's gateway sends a READ of object 0x1102:00 for its client 1. -/
def key5 : ClientKey := { chip := 5, transport := .mailbox, client := 1 }
def gated : State := { withObjs trellis0 [(0x1102, 0, 0)] with kpp := { clients := [{ key := key5 }] } }
def fwd5 : KppPacket := { dest := 0, src := 5, cmd := 1, frame := kreq 0x1102 0 0 [] }

def rspOut : KppPacket := { dest := 5, src := 0, cmd := 0x81, frame := { kreq 0x1102 0 2 [0, 0] with length := 64 } }

def fwdMeets : Bool :=
  let s := gated
  let g : Held := { key := key5, cmd := fwd5.cmd, req := fwd5.frame, arrived := s.cycle, port := 2 }
  let s' := s.setLink 2 { s.link 2 with rxSeq := (s.link 2).rxSeq + 1, gap := false, occupied := (s.link 2).occupied.set 3 (vcGet (s.link 2).occupied 3 + 1) }
  let r := (s'.executing g).runRequest g
  match r.2 with
  | .error _ => false
  | .ok (n, p) => decide (r.1.streams.clearing = s.streams.clearing) && decide (p.length ≤ 56) && decide (n < 4) &&
      !(g.wrote 0x2202 5 1) && decide (r.1.routePort 5 = some 2) && decide (r.1.links = s'.links) && decide (r.1.power = s.power) &&
      decide (s.client key5 = some { key := key5 }) && s.keeperServes && decide (s.kpp.deferred = none) &&
      (s'.executing g).objPowered 0x1102 0 && decide ((s'.executing g).matrix.ecc = []) && decide (s.kpp.waiting = [])

theorem test_forward : gated.inOrder 2 0 ∧ fwdMeets = true ∧ ok (exec (.kppFwd 2 0 fwd5) gated) (fun t =>
    decide ((t.link 2).replay.map (·.body) = [.kppRsp rspOut])) = true := by unfold State.inOrder; decide +kernel

/-- This gateway waits for chip 5's response to client 1. -/
def held5 : Held := { key := key1, cmd := 1, req := { kreq 0x1102 0 0 [] with tgt := 5 } }
def waits5 : State := { trellis0 with kpp := { forwards := [held5] } }
def rsp5 : KppPacket := { dest := 0, src := 5, cmd := 0x81, frame := { kreq 0x1102 0 2 [9, 0] with tgt := 5 } }

/-- Client 1 of this gateway asks chip 5. -/
theorem test_gateway : let r : KppRequest := { kreq 0x1102 0 0 [] with tgt := 5 }
    let s := withObjs trellis0 [(0x1104, 1, 1)]
    s.transportServed .mailbox = true ∧ s.power.dev ≠ .rest ∧ malformed (s.holdOf 1 r) = false ∧ s.objOn 0x1104 1 = true ∧
    s.kpp.forwards.length < 16 ∧ s.routePort 5 = some 2 ∧
    ok (exec (.read r) s) (fun t => decide (t.kpp.forwards = [s.holdOf 1 r]) &&
      decide ((t.link 2).replay.map (·.body) = [.kppFwd { dest := 5, src := 0, cmd := 1, frame := r }])) = true := by
  decide +kernel

theorem test_forwarded : waits5.forwarded key1 5 = some held5 ∧ waits5.inOrder 2 0 ∧ trellis0.forwarded key1 5 = none ∧
    ok (exec (.kppRsp 2 0 rsp5) waits5) (fun t => decide (t.kpp.forwards = []) &&
      decide (t.kpp.mailboxResponse = [0x81, 1, 5, 5, 2, 0x11, 0, 2, 9, 0])) = true ∧
    ok (exec (.kppRsp 2 0 rsp5) trellis0) (fun t => decide (t.obj 0x7071 5 = 1)) = true ∧
    ok (exec (.forwardTimeout key1 5) waits5) (fun t =>
      decide (t.kpp.mailboxResponse = [0xC1, 1, 5, 0, 2, 0x11, 0, 1, 0x0D])) = true := by unfold State.inOrder; decide +kernel

theorem test_rates : run0.keeperServes = true ∧ ok (exec .applyRates (withObjs run0 [(0x1101, 1, 1000000)])) (fun t =>
    decide (t.kpp.nominalRate = 1000000)) = true := by decide +kernel

/-! ### The cyclic exchange -/

/-- Chip 0, node 1, with the exchange enabled and the Tracker LOCKED; delivery at phase 0 into DRAM. -/
def cyclic0 : State :=
  { withObjs open3 [(0x1105, 1, 1), (0x6002, 1, 0x2000), (0x1102, 0, 1000), (0x1105, 5, 2)] with
    tracker := track0, cycle := 20000 }

theorem test_heartbeat : cyclic0.imageRuns = true ∧ cyclic0.node ≠ 0 ∧ cyclic0.exchanges = true ∧
    ok (exec .heartbeat cyclic0) (fun t => decide (t.outputs.can.map (·.data.length) = [6])) = true ∧
    ok (exec (.classicFrame (BitVec.ofNat 11 (0x400 + cyclic0.node))) cyclic0) (fun t => decide (t.obj 0x7071 2 = 1)) = true ∧
    isNext (exec (.classicFrame 0x123) cyclic0) cyclic0 = true := by decide +kernel

theorem test_command_image : cyclic0.power.rest = .none ∧
    ok (exec (.commandImage (List.replicate 64 0xA5)) cyclic0) (fun t => t.kpp.present &&
      ok (exec .consumerTimeout t) fun u => !u.kpp.present && decide (u.obj 0x7072 1 = 1)) = true ∧
    ok (exec (.commandImage [1]) cyclic0) (fun t => decide (t.obj 0x7071 1 = 1)) = true := by decide +kernel

/-- Delivery with the station present, absent, and absent too long (`HOLD` 2). -/
def absent (n : Nat) : State := { cyclic0 with kpp := { present := false, absent := n, image := List.replicate 64 0xA5 } }
def delivers (s : State) : Bool :=
  ramIn (s.toPhase (s.obj 0x1105 3)) 11 (partByte (s.obj 0x6002 3)) true (2 ^ 30) (s.obj 0x6002 1) 64

theorem test_delivery : (absent 0).imageEpoch = true ∧ (absent 0).isOn 1 = true ∧ delivers (absent 0) = true ∧ delivers (absent 2) = true ∧
    ok (exec .commandImageDelivery (absent 1)) (fun t => decide (t.kpp.deliveredFlags = 5) &&
      decide (t.rdBytes 0x2000 4 = [0xA5, 0xA5, 5, 0xA5])) = true ∧
    ok (exec .commandImageDelivery (absent 2)) (fun t => decide (t.kpp.deliveredFlags = 6) &&
      decide (t.rdBytes 0x2000 4 = [0, 0, 6, 0])) = true := by decide +kernel

theorem test_alert_image : cyclic0.imageEpoch = true ∧ ok (exec .alertImage cyclic0) (fun t =>
    decide (t.outputs.can.map (·.data.length) = [64])) = true := by decide +kernel

/-- Alerts 0 to 2, faults 0 to 2. -/
def noted : State :=
  let f (n : W32) : FaultRecord := { code := 0x801, sev := 0, part := 0, unit := 0, chip := 0, epoch := 0, phase := 0, cycle := 0,
                                     seq := n, addr := 0, det0 := 0, det1 := 0 }
  { run0 with alerts := { ring := [⟨0, 0, 0, 0, 0⟩, ⟨1, 0, 0, 0, 0⟩, ⟨2, 0, 0, 0, 0⟩], nextSeq := 3 },
              faults := { log := [f 0, f 1, f 2], nextSeq := 3 } }

theorem test_acknowledge : noted.oldestAlert = 0 ∧ noted.oldestFault = 0 ∧
    ok (exec (.alertAcknowledge 2) noted) (fun t => decide (t.alerts.ring.map (·.seq) = [2])) = true ∧
    ok (exec (.faultAcknowledge 3) noted) (fun t => decide (t.faults.log = [])) = true ∧
    isNext (exec (.faultAcknowledge 0) noted) { noted with kpp := { noted.kpp with result := 0 } } = true := by decide +kernel

/-! ### Power, Rest, resets -/

/-- An SX4 in READY; D5 (bed 0's first array) in some state. -/
def ready0 : State := { run0 with power := { run0.power with dev := .ready } }
def domainIn (d : Nat) (v : DomainState) : State := ready0.setDomain d v

theorem test_domain_hypotheses : ready0.keeperServes = true ∧ ready0.switching = false ∧ ready0.obj 0x2201 6 ≠ 3 ∧
    ready0.mayGoOff 5 = true ∧ ready0.mayGoOff 44 = false ∧ ready0.domain 38 = .on ∧ (domainIn 5 .off).domain 5 = .off ∧
    (domainIn 5 .off).mayGoOn 5 = true ∧ (domainIn 5 (.draining false)).drained 5 = true ∧
    (domainIn 38 (.draining true)).drained 38 = true ∧ (domainIn 5 (.draining false)).power.warm = .none ∧ (domainIn 5 (.switchingOn false)).domain 5 = .switchingOn false ∧
    ready0.power.domainReqs = [] := by decide +kernel

theorem test_domains : ok (exec (.domainOff 5) ready0) (fun t => decide (t.domain 5 = .draining false) &&
      decide (t.obj 0x2201 6 = 3)) = true ∧
    ok (exec (.domainOff 44) ready0) (fun t => decide (t.kpp.result = 9)) = true ∧
    ok (exec (.domainRetain 38) ready0) (fun t => decide (t.domain 38 = .draining true)) = true ∧
    ok (exec (.domainOn 5) (domainIn 5 .off)) (fun t => decide (t.domain 5 = .switchingOn false)) = true := by decide +kernel

/-- A retained quarter goes off, or on again with its contents; what Table PW-1 forbids, and what is switching. -/
theorem test_retained : let s := (domainIn 38 .retained).wrBytes (memKey 1 0) [7]
    s.mayGoOff 38 = true ∧ s.mayGoOn 38 = true ∧ s.keeperServes = true ∧ s.switching = false ∧ s.obj 0x2201 39 ≠ 3 ∧
    ok (exec (.domainOff 38) s) (fun t => decide (t.domain 38 = .off) && decide (t.rd8 (memKey 1 0) = 0)) = true ∧
    ok (exec (.domainOn 38) s) (fun t => decide (t.domain 38 = .switchingOn true) && decide (t.rd8 (memKey 1 0) = 7)) = true ∧
    ok (exec (.domainOff 0) ready0) (fun t => decide (t.kpp.result = 6)) = true ∧
    ok (exec (.domainRetain 37) ready0) (fun t => decide (t.kpp.result = 6)) = true ∧
    ok (exec (.domainOff 5) (withObjs ready0 [(0x2201, 6, 3)])) (fun t => decide (t.kpp.result = 0xB)) = true := by
  decide +kernel

theorem test_drains : ok (exec (.drainComplete 5) ((domainIn 5 (.draining false)).wrBytes (memKey 8 0) [7])) (fun t =>
      decide (t.domain 5 = .off) && decide (t.rd8 (memKey 8 0) = 0)) = true ∧
    ok (exec (.drainComplete 38) ((domainIn 38 (.draining true)).wrBytes (memKey 1 0) [7])) (fun t =>
      decide (t.domain 38 = .retained) && decide (t.rd8 (memKey 1 0) = 7)) = true ∧
    ok (exec (.switchOnComplete 5) (domainIn 5 (.switchingOn false))) (fun t => t.isOn 5) = true := by decide +kernel

/-- A request waits at bed 0's Thread Store. -/
def stuck : State :=
  let s := domainIn 2 (.draining false)
  { s with matrix := { s.matrix with requests := [{ reqOf 4 4 (BitVec.ofNat 64 (memKey 20 0 + 2 ^ 60)) .read (.thread thA) with
      port := { target := 0, port := 0 } }] } }

theorem test_drain_timeout : stuck.domain 2 = .draining false ∧ stuck.drained 2 = false ∧ stuck.power.rest = .none ∧
    ok (exec (.drainTimeout 2) stuck) (fun t => t.isOn 2 && decide (t.obj 0x701E 1 = 1)) = true := by decide +kernel

/-- Rest may be entered: wake mask and save area set. -/
def restable : State := withObjs ready0 [(0x2202, 2, 0xF), (0x2202, 6, 0x40000), (0x4010, 3, 0x400)]
def entering : State := after (exec .restRequest restable)
def asleep : State := { restable with power := { restable.power with dev := .rest, rest := .asleep } }
def waking : State := { restable with power := { restable.power with dev := .rest, rest := .waking } }

theorem test_rest_request : restable.restRefused = false ∧ ready0.restRefused = true ∧ restable.power.rest = .none ∧
    ok (exec .restRequest restable) (fun t => decide (t.power.rest = .entering) &&
      decide (t.domain 49 = .draining false)) = true ∧
    ok (exec .restRequest ready0) (fun t => decide (t.kpp.result = 9)) = true := by decide +kernel

theorem test_almanac_rest : fires (due (withObjs run0 [(0x2202, 2, 0xF), (0x2202, 6, 0x40000)]) 0xA 0 0 0) 0xA = true ∧
    ((due (withObjs run0 [(0x2202, 2, 0xF), (0x2202, 6, 0x40000)]) 0xA 0 0 0).advance 20000).restRefused = false ∧
    fires (due run0 0xA 0 0 0) 0xA = true ∧ ((due run0 0xA 0 0 0).advance 20000).restRefused = true ∧
    ok (exec (.almanacRest 0 20000) (due (withObjs run0 [(0x2202, 2, 0xF), (0x2202, 6, 0x40000)]) 0xA 0 0 0)) (fun t =>
      decide (t.power.rest = .entering)) = true ∧
    ok (exec (.almanacRest 0 20000) (due run0 0xA 0 0 0)) (fun t => decide (t.obj 0x2103 6 = 1)) = true := by decide +kernel

/-- A wake event comes while Rest is being entered. -/
theorem test_held_wake : (entering.obj 0x2202 2).testBit 1 = true ∧
    ok (exec .wakeN entering) (fun t => decide (t.power.heldWake = some 1) && t.allDrained &&
      ok (exec .restEntryComplete t) fun u => decide (u.power.rest = .waking) && decide (u.obj 0x2202 4 = 2)) = true := by
  decide +kernel

theorem test_rest_entry : entering.power.rest = .entering ∧ entering.allDrained = true ∧ entering.power.heldWake = none ∧
    ok (exec .restEntryComplete entering) (fun t => decide (t.power.dev = .rest) && !t.isOn 49) = true := by decide +kernel

theorem test_rest_drain_timeout : { entering with matrix := stuck.matrix }.allDrained = false ∧
    ok (exec .restDrainTimeout { entering with matrix := stuck.matrix }) (fun t => decide (t.power.rest = .none) &&
      t.isOn 49 && decide (t.obj 0x701E 1 = 1)) = true := by decide +kernel

theorem test_wake : asleep.node = 1 ∧ (asleep.obj 0x2202 2).testBit 1 = true ∧ ((withObjs ready0 [(0x2202, 2, 0)]).obj 0x2202 2).testBit 1 = false ∧
    ok (exec .wakeN asleep) (fun t => decide (t.power.rest = .waking) && decide (t.obj 0x2202 4 = 2)) = true ∧
    ok (exec (.canWake 0x401) asleep) (fun t => decide (t.obj 0x2202 4 = 4)) = true ∧
    ok (exec .clkreqNWake asleep) (fun t => decide (t.obj 0x2202 4 = 8)) = true := by decide +kernel

theorem test_wake_complete : waking.power.rest = .waking ∧ waking.kpp.kept = [] ∧ waking.obj 0x2200 50 = 1 ∧
    ok (exec .wakeComplete waking) (fun t => decide (t.power.dev = .ready) && t.isOn 49 && decide (250000 ≤ t.cycle)) = true ∧
    fires (due asleep 9 0 0 0) 9 = true ∧
    ok (exec (.almanacWake 0 20000) (due asleep 9 0 0 0)) (fun t => decide (t.power.rest = .waking)) = true := by decide +kernel

/-- An SX4 with fuses, flash and a thread; the supplies down. -/
def used : State :=
  let s := withObjs danto0 [(0x7F00, 5, 1), (0x1102, 0, 7)]
  { s with power := { s.power with flash := [(5, 7)] } }
def offSX : State := { used with power := { used.power with dev := .off } }

theorem test_cold_reset : used.power.dev ≠ .off ∧ offSX.power.dev = .off ∧
    ok (exec (.coldReset ⟨5, 1, true⟩) used) (fun t => decide (t.power.dev = .boot) && decide (t.chip = 5) &&
      decide (t.obj 0x7F00 5 = 1) && decide (t.obj 0x1102 0 = objDefault 0x1102 0) && decide (t.power.flash = [(5, 7)]) &&
      decide (t.contexts = [])) = true ∧
    ok (exec .suppliesInTolerance offSX) (fun t => decide (t.power.dev = .reset)) = true ∧
    ok (exec (.supplyLoss .alwaysOn) used) (fun t => decide (t.power.dev = .reset)) = true ∧
    ok (exec (.supplyLoss .removed) used) (fun t => decide (t.power.dev = .off)) = true := by decide +kernel

theorem test_warm_reset : used.allDrained = true ∧ used.power.dev = .run ∧ used.power.sysrstLow = false ∧
    ({ used with matrix := stuck.matrix } : State).allDrained = false ∧
    ok (exec (.warmReset .object) used) (fun t => decide (t.power.dev = .boot) && decide (t.contexts = [])) = true ∧
    ok (exec (.warmReset .pin) used) (fun t => decide (t.power.warm = .held) &&
      ok (exec .sysrstNRelease t) fun u => decide (u.power.dev = .boot)) = true ∧
    ok (exec (.warmReset .pin) { used with matrix := stuck.matrix }) (fun t => decide (t.power.warm = .draining) &&
      ok (exec .warmResetDrainTimeout t) fun u => decide (u.power.warm = .held) && decide (u.obj 0x701E 1 = 1)) = true := by
  decide +kernel

/-- The last drain of a warm reset ends; a part in FAULT after a trip, still hot. -/
theorem test_warm_drains : let s : State := { used with power := { used.power with dev := .reset, warm := .draining } }
    let h : State := { used with power := { used.power with dev := .fault, tripped := true, temperature := 200000 } }
    s.allDrained = true ∧ ok (exec (.drainComplete 5) s) (fun t => decide (t.power.dev = .boot) && decide (t.contexts = [])) = true ∧
    ({ s with matrix := stuck.matrix } : State).allDrained = false ∧
    isNext (exec (.drainComplete 5) { s with matrix := stuck.matrix }) { s with matrix := stuck.matrix } = true ∧
    signedOf 32 (h.obj 0x2203 2) ≤ h.power.temperature ∧
    ok (exec (.warmReset .pin) h) (fun t => decide (t.power.warm = .hot)) = true := by decide +kernel

/-- A part above its warning threshold of 95 °C. -/
def warm0 : State := { used with power := { used.power with thermLow := true } }

theorem test_temperature : used.monitors = true ∧ used.power.thermLow = false ∧ signedOf 32 (used.obj 0x2203 2) < 200000 ∧
    signedOf 32 (used.obj 0x2203 3) < 200000 ∧ (0 : Int) ≤ signedOf 32 (used.obj 0x2203 2) - 2000 ∧ warm0.monitors = true ∧
    used.power.dev ≠ .reset ∧ used.power.tripped = false ∧
    ok (exec (.thermalWarn 3 200000) used) (fun t => t.power.thermLow && decide (t.obj 0x701E 2 = 1)) = true ∧
    ok (exec (.thermalClear 0) warm0) (fun t => !t.power.thermLow) = true ∧
    ok (exec (.thermalTrip 3 200000) used) (fun t => decide (t.power.dev = .fault) && t.power.tripped &&
      decide (t.domain 49 = .off)) = true := by decide +kernel

/-- After a trip, a warm reset asked for waits for the temperature. -/
def hotSX : State := { used with power := { used.power with dev := .fault, warm := .hot, tripped := true, temperature := 200000 } }

theorem test_below_warning : hotSX.monitors = true ∧ hotSX.power.warm = .hot ∧ used.power.warm ≠ .hot ∧
    ok (exec (.temperatureBelowWarning 20000) hotSX) (fun t => decide (t.power.warm = .none) &&
      decide (t.power.dev = .boot)) = true ∧
    ok (exec (.temperatureBelowWarning 20000) used) (fun t => decide (t.power.temperature = 20000)) = true := by decide +kernel

theorem test_supply : used.railTarget 3 = some 850 ∧ (764 : Nat) * 10 < 850 * 9 ∧ 850 * 9 ≤ 765 * 10 ∧
    935 * 10 ≤ 850 * 11 ∧ ok (exec (.supplyFault 3 764) used) (fun t => decide (t.power.dev = .fault) &&
      decide (t.obj 0x701E 4 = 1)) = true ∧
    isNext (exec (.supplyFault 3 935) used) used = true := by decide +kernel

/-- The regulator answers or not; within a millisecond of the last step nothing goes out. -/
theorem test_avs_hypotheses : used.power.dev ∈ [DevState.config, .ready, .run, .rest, .fault] ∧ used.power.avsAt = none ∧
    650 ≤ used.obj 0x2203 4 ∧ used.obj 0x2203 4 ≤ 850 ∧ ({} : State).power.dev = .boot ∧
    ok (exec (.avsUpdate false) used) (fun t => decide (t.power.avsAt = some 0) && decide (t.obj 0x2203 4 = used.obj 0x2203 4) &&
      decide (t.outputs.avs.length = 1)) = true ∧
    (let s : State := { used with power := { used.power with avsAt := some 0 } }
     isNext (exec (.avsUpdate true) s) s) = true := by decide +kernel

theorem test_avs (goal : Nat) : avsNext 700 goal ≤ 710 ∧ 690 ≤ avsNext 700 goal := by unfold avsNext; constructor <;> (dsimp only; split <;> omega)

/-! ### Boot and device states -/

/-- The digest of 4,096 erased bytes, as the bytes of an image header spell it. -/
def erasedDigest : Nat := 0x848dd6fb93ae9cc925b4bd605056cabb93fe476b27b64853f1dd7921fb0317727aa1111b46d55b121415388fcca66197

set_option maxRecDepth 100000 in
theorem test_digest : leNat (sha384 (List.replicate 4096 0xFF)) = erasedDigest ∧
    (sha384 (List.replicate 4096 0xFF)).length = 48 := by decide +kernel

/-- An image of erased bytes at a place of the flash, with this digest in its header; the selection block names sel. -/
def flashed (off digest sel : Nat) : State :=
  (({} : State).program off (record 64 [(0, 4, 0x4B494D4E), (4, 4, 3), (8, 4, 4096), (16, 48, digest)])).program 0xFF000
    (natLe sel 4 ++ natLe (2 ^ 32 - 1 - sel) 4)

/-- What the checks of an image without SECURE come to when its body is erased. -/
theorem check_erased (get : Nat → Byte) (h : Nat) (hp : imagePresent get imageRoom = true)
    (hl : leNat (span get 8 4) = 4096) (hb : span get 256 4096 = List.replicate 4096 0xFF) :
    checkImage get imageRoom false h =
      if sha384 (List.replicate 4096 0xFF) ≠ span get 16 48 then .failed else .good false := by
  unfold checkImage
  rw [hl, hb, hp]
  generalize sha384 (List.replicate 4096 0xFF) = x
  simp

theorem le_inj (a b : List Byte) (hl : a.length = b.length) (h : leNat a = leNat b) : a = b := by
  induction a generalizing b with
  | nil => cases b <;> simp_all
  | cons x r ih =>
    cases b with
    | nil => simp at hl
    | cons y q =>
      simp only [leNat] at h
      have := x.isLt
      have := y.isLt
      have hx : x.toNat = y.toNat := by omega
      have hr : leNat r = leNat q := by omega
      rw [BitVec.eq_of_toNat_eq hx, ih q (by simpa using hl) hr]

/-- Image A or B of a flash, as far as its header goes. -/
def bodyOf (off digest sel image : Nat) : Nat → Byte := fun i => (flashed off digest sel).flashByte (imageBase image + i)

/-- Programming bytes of the flash leaves the others. -/
theorem program_other (s : State) (off : Nat) (l : List Byte) (k : Nat) (h : k < off ∨ off + l.length ≤ k) :
    (s.program off l).flashByte k = s.flashByte k := by
  have aux : ∀ (es : List (Nat × Byte)) (m : Table Byte), (∀ e ∈ es, k ≠ off + e.1) →
      tget (es.foldl (fun m e => tset m (off + e.1) e.2 0xFF) m) k 0xFF = tget m k 0xFF := by
    intro es
    induction es with
    | nil => exact fun m _ => rfl
    | cons e r ih =>
      intro m h
      refine (ih _ fun x hx => h x (by simp [hx])).trans ?_
      exact tget_tset_other _ _ _ _ _ _ (h e (by simp))
  refine aux _ _ fun e he => ?_
  have := List.of_mem_zip he
  have := List.mem_range.mp this.1
  omega

/-- The body of a flashed image is erased. -/
theorem body_erased (off digest sel image : Nat) (ho : off = imageBase image) (hi : off ≤ 0x80000) :
    span (bodyOf off digest sel image) 256 4096 = List.replicate 4096 0xFF := by
  have hl : ∀ l : List (Nat × Nat × Nat), (∀ e ∈ l, e.1 + e.2.1 ≤ 64) → (record 64 l).length = 64 := by
    intro l hl
    have : ∀ (l : List (Nat × Nat × Nat)) (b : List Byte), b.length = 64 → (∀ e ∈ l, e.1 + e.2.1 ≤ 64) →
        (l.foldl (fun b e => patch b e.1 (natLe e.2.2 e.2.1)) b).length = 64 := by
      intro l
      induction l with
      | nil => exact fun b hb _ => hb
      | cons e r ih =>
        intro b hb h
        refine ih _ ?_ fun x hx => h x (by simp [hx])
        have := h e (by simp)
        simp [patch, hb]
        omega
    exact this l _ (by simp [zeros]) hl
  unfold span
  rw [List.eq_replicate_iff]
  refine ⟨by simp, fun b hb => ?_⟩
  obtain ⟨i, hi', rfl⟩ := List.mem_map.mp hb
  have := List.mem_range.mp hi'
  unfold bodyOf flashed
  rw [program_other _ _ _ _ (.inl (by omega)), program_other _ _ _ _ (.inr ?_)]
  · rfl
  · rw [hl _ (by simp)]
    omega

theorem test_headers : imagePresent (bodyOf 0 erasedDigest 1 1) imageRoom = true ∧
    imagePresent (bodyOf 0 (erasedDigest + 1) 1 1) imageRoom = true ∧
    imagePresent (bodyOf 0x80000 erasedDigest 1 2) imageRoom = true ∧
    leNat (span (bodyOf 0 erasedDigest 1 1) 16 48) = erasedDigest ∧
    leNat (span (bodyOf 0 (erasedDigest + 1) 1 1) 16 48) = erasedDigest + 1 ∧
    leNat (span (bodyOf 0x80000 erasedDigest 1 2) 16 48) = erasedDigest := by decide +kernel

theorem test_image : (flashed 0 erasedDigest 1).checkFlash 1 = .good false := by
  refine (check_erased (bodyOf 0 erasedDigest 1 1) 0 test_headers.1 (by decide +kernel) (body_erased _ _ _ _ rfl (by decide))).trans ?_
  have := le_inj _ _ (test_digest.2.trans (by simp [span])) (test_digest.1.trans test_headers.2.2.2.1.symm)
  rw [if_neg (not_not.mpr this)]

theorem test_bad_image : (flashed 0 (erasedDigest + 1) 1).checkFlash 1 = .failed := by
  refine (check_erased (bodyOf 0 (erasedDigest + 1) 1 1) 0 test_headers.2.1 (by decide +kernel) (body_erased _ _ _ _ rfl (by decide))).trans ?_
  rw [if_pos]
  intro h
  have := test_headers.2.2.2.2.1.symm.trans ((congrArg leNat h).symm.trans test_digest.1)
  omega

theorem test_other_image : (flashed 0x80000 erasedDigest 1).checkFlash 2 = .good false := by
  refine (check_erased (bodyOf 0x80000 erasedDigest 1 2) 0 test_headers.2.2.1 (by decide +kernel) (body_erased _ _ _ _ rfl (by decide))).trans ?_
  have := le_inj _ _ (test_digest.2.trans (by simp [span])) (test_digest.1.trans test_headers.2.2.2.2.2.symm)
  rw [if_neg (not_not.mpr this)]

theorem test_selection : (flashed 0 0 1).selected = 1 ∧ (flashed 0 0 2).selected = 2 ∧ (flashed 0 0 3).selected = 1 ∧
    (flashed 0x80000 erasedDigest 1).checkFlash 1 = .missing ∧ (flashed 0 (erasedDigest + 1) 1).checkFlash 2 = .missing ∧
    (flashed 0 erasedDigest 1).fusesOk = true ∧ (flashed 0 0 1).hasFlash = true ∧ (flashed 0 0 1).testMode = false ∧
    (flashed 0 0 1).power.dev = .boot := by decide +kernel

/-- An SX4 whose key hash is missing does not boot; nor does one with an erased flash. -/
theorem test_no_boot : (withObjs {} [(0x7F00, 5, 1)]).fusesOk = false ∧ ({} : State).checkFlash 1 = .missing ∧
    ({} : State).checkFlash 2 = .missing ∧
    ok (exec .imageStart (withObjs {} [(0x7F00, 5, 1)])) (fun t => decide (t.power.dev = .fault) &&
      decide (t.obj 0x7020 3 = 1)) = true ∧
    ok (exec .imageStart {}) (fun t => decide (t.power.dev = .fault) && decide (t.obj 0x7020 2 = 1)) = true := by decide +kernel

theorem test_state_requests : ok (exec .stateRequestRun ready0) (fun t => decide (t.power.request = some .run) &&
      decide (t.power.dev = .ready)) = true ∧
    ok (exec .stateRequestConfig ready0) (fun t => decide (t.power.dev = .config)) = true ∧
    ok (exec .stateRequestReady run0) (fun t => decide (t.power.request = some .ready)) = true ∧
    config0.power.dev = .config ∧ config0.locked = false ∧
    ok (exec .stateRequestReady config0) (fun t => decide (t.kpp.result = 9)) = true := by decide +kernel

/-- The firmware writes the slot that is not running. -/
def firmware : State := withObjs run0 [(0x7F00, 1, 1), (0x7F00, 9, 0x100)]

theorem test_image_write : firmware.firmwareRuns = true ∧ firmware.firmwareLocked = false ∧ firmware.hasFlash = true ∧
    firmware.obj 0x7F00 9 + 2 ≤ 0x7F000 ∧ (2 : BitVec 8).toNat ≠ firmware.obj 0x7F00 2 ∧
    ok (exec (.imageBlockWrite [7, 8]) firmware) (fun t => decide (t.flashByte 0x80101 = 8)) = true := by decide +kernel

set_option maxRecDepth 100000 in
theorem test_next_image : ok (exec (.nextImageWrite 2) firmware) (fun t => decide (t.selected = 2) &&
    decide (t.obj 0x7F00 2 = 2)) = true := by decide +kernel

/-- An image of zeros in the download buffer of an SX4 that boots over PCIe, with this digest in its header. -/
def zeroDigest : Nat := 0x74d7a82acfae1e4a35566fa1f709685864fc4eef4f7c735f51ff96429445c7abac2f4336fb2854c7b5d3fb3f3e9ae5c0
def downloaded (digest : Nat) : State := { power := {
  straps := { chipId := 0, bootSel := 1, testN := true }, downloadLen := 4352,
  download := (List.range 64).zip (record 64 [(0, 4, 0x4B494D4E), (4, 4, 3), (8, 4, 4096), (16, 48, digest)]) } }

set_option maxRecDepth 100000 in
theorem test_zero_digest : leNat (sha384 (List.replicate 4096 0)) = zeroDigest ∧
    (sha384 (List.replicate 4096 0)).length = 48 := by decide +kernel

theorem tget_absent {α : Type} (m : Table α) (k : Nat) (d : α) (h : ∀ e ∈ m, e.1 ≠ k) : tget m k d = d := by
  induction m with
  | nil => rfl
  | cons e r ih => simp [tget, h e (by simp), ih fun x hx => h x (by simp [hx])]

theorem test_download_header : let get := fun i => tget (downloaded zeroDigest).power.download i 0
    imagePresent get 4352 = true ∧ leNat (span get 8 4) = 4096 ∧ leNat (span get 16 48) = zeroDigest ∧
    (downloaded 0).downloads = true ∧ (downloaded 0).fusesOk = true ∧ (downloaded 0).testMode = false ∧
    (downloaded 0).hasFlash = false ∧ (downloaded 0).secure = false ∧ (downloaded 0).firmwareLocked = false := by decide +kernel

/-- A good image has been downloaded. -/
theorem test_download : checkImage (fun i => tget (downloaded zeroDigest).power.download i 0) 4352 false 0 = .good false := by
  obtain ⟨h1, h2, h3, -⟩ := test_download_header
  have hb : span (fun i => tget (downloaded zeroDigest).power.download i 0) 256 4096 = List.replicate 4096 0 := by
    unfold span
    rw [List.eq_replicate_iff]
    refine ⟨by simp, fun b hb => ?_⟩
    obtain ⟨i, -, rfl⟩ := List.mem_map.mp hb
    refine tget_absent _ _ _ fun e he => ?_
    have := List.mem_range.mp (List.of_mem_zip he).1
    omega
  have hd := le_inj _ _ (test_zero_digest.2.trans (by simp [span])) (test_zero_digest.1.trans h3.symm)
  unfold checkImage
  rw [h2, hb, h1]
  generalize sha384 (List.replicate 4096 0) = x at *
  simp [hd]

/-- Nothing has been downloaded, with good fuses and bad; a block comes; a flash that is not there. -/
theorem test_download_fails : let s : State := { power := { straps := { chipId := 0, bootSel := 1, testN := true } } }
    let bad : State := { s with power := { s.power with fuseParityBad := [objKey 0x7F00 5] } }
    let none' : State := { s with power := { s.power with straps := { chipId := 0, bootSel := 3, testN := true } } }
    checkImage (fun i => tget s.power.download i 0) 0 false 0 = .missing ∧ bad.fusesOk = false ∧
    isNext (exec .imageStart s) s = true ∧ none'.downloads = false ∧ none'.hasFlash = false ∧
    ok (exec .imageStart none') (fun t => decide (t.obj 0x7020 2 = 1)) = true ∧
    ok (exec .stateRequestConfig s) (fun t => decide (t.power.dev = .fault) && decide (t.obj 0x7020 2 = 1)) = true ∧
    ok (exec .stateRequestConfig bad) (fun t => decide (t.obj 0x7020 3 = 1)) = true ∧
    ok (exec (.imageBlockWrite [7, 8]) s) (fun t => decide (tget t.power.download 1 0 = 8)) = true ∧
    ok (exec (.imageBlockWrite (zeros 2)) (withObjs s [(0x7F00, 9, 0x7EFFF)])) (fun t => decide (t.kpp.result = 6)) = true := by
  decide +kernel

/-- The next image that is named already; one that there is not. -/
theorem test_next_refused : ok (exec (.nextImageWrite 3) firmware) (fun t => decide (t.kpp.result = 6)) = true ∧
    (withObjs firmware [(0x7F00, 2, 1)]).obj 0x7F00 2 = 1 ∧
    ok (exec (.nextImageWrite 1) (withObjs firmware [(0x7F00, 2, 1)])) (fun t => decide (t.kpp.result = 0)) = true := by
  decide +kernel

/-! ### Pins -/

theorem test_pins_fault : { blank with power := { blank.power with dev := .fault } }.faultN = .low ∧ blank.faultN = .hiZ ∧
    { blank with power := { blank.power with thermLow := true } }.thermN = .low ∧
    { blank with power := { blank.power with thermLow := true, dev := .reset, warmed := true } }.thermN = .hiZ ∧
    { blank with power := { blank.power with dev := .boot, warmed := true } }.canTxd = .high ∧
    { blank with power := { blank.power with dev := .boot } }.canTxd = .hiZ := by decide

def pulsing (c : Nat) : State := { run0 with cycle := c, tracker := { run0.tracker with state := .locked, outRise := some 128 } }

theorem test_epoch_out : (pulsing 128).epochOut = .high ∧ (pulsing 1127).epochOut = .high ∧ (pulsing 127).epochOut = .low ∧
    (pulsing 1128).epochOut = .low ∧ State.reset.epochOut = .hiZ := by decide

theorem test_transmitters : State.reset.trellisIdle 0 = true ∧ State.reset.pcieIdle = false := by decide

/-! ### Trace and debug -/

/-- Trace on, its pins in use, timestamps each 2^10 cycles; source 5 has lost 3 packets since cycle 17. -/
def tracing : State :=
  let s := withObjs run0 [(0x7800, 1, 1), (0x7800, 3, 10)]
  { s with cycle := 1000, trace := { losses := [(5, (3, 17))], warned := [5] } }

theorem test_timestamp : tracing.emits 63 deviceWide = true ∧ tracing.obj 0x7800 2 = 0 ∧ run0.emits 63 deviceWide = false ∧
    ok (exec .timestamp tracing) (fun t => decide (t.cycle = 1024) &&
      decide (t.outputs.trace.map (·.take 2) = [[0x7F, 0]])) = true ∧
    ok (exec .timestamp { tracing with cycle := 1024, trace := { stamped := some 1024 } }) (fun t => decide (t.cycle = 2048)) = true ∧
    ok (step { tracing with cycle := 1023 }) (fun t => decide (t.trace.stamped = some 1024)) = true ∧
    ok (exec .timestamp run0) (fun t => decide (t.outputs.trace = [])) = true := by decide +kernel

/-- With the source's bit clear nothing leaves; into the ring, and into one too small. -/
theorem test_timestamp_ring : let masked := withObjs tracing [(0x7800, 6, 2 ^ 63 - 1)]
    let ring := withObjs tracing [(0x7800, 2, 1), (0x7800, 4, 0x3000), (0x7800, 5, 8192)]
    masked.emits 63 deviceWide = false ∧ ok (exec .timestamp masked) (fun t => decide (t.outputs.trace = [])) = true ∧
    ring.emits 63 deviceWide = true ∧ ring.matrix.requests = [] ∧ ring.obj 0x7800 2 ≠ 0 ∧
    ok (exec .timestamp ring) (fun t => decide (t.trace.ringTotal = 16) && decide (t.outputs.trace = [])) = true ∧
    ok (exec .timestamp (withObjs ring [(0x7800, 5, 0)])) (fun t => decide (t.trace.ringTotal = 0)) = true := by decide +kernel

theorem test_trace_enable : run0.obj 0x7800 1 = 0 ∧ run0.isOn 49 = true ∧ run0.obj 0x7800 2 = 0 ∧
    ok (exec .traceEnable run0) (fun t => decide (t.outputs.trace.length = 1) && t.traceOn) = true ∧
    ok (exec .traceEnable { run0 with trace := tracing.trace }) (fun t => decide (t.trace.warned = []) &&
      decide (t.trace.losses = [(5, (3, 17))])) = true := by decide +kernel

theorem test_overflow : tracing.emits 5 (tracing.overflowWho 5) = true ∧ run0.emits 5 (run0.overflowWho 5) = false ∧ (tget tracing.trace.losses 5 (0, 0)).1 ≠ 0 ∧ (tget tracing.trace.buffers 5 []).length < 64 ∧
    (tget tracing.trace.losses 6 (0, 0)).1 = 0 ∧
    ok (exec (.overflowPacket 5) tracing) (fun t => decide (tget t.trace.buffers 5 [] =
      [[0x85, 0, 0, 0, 17, 0, 0, 0, 3, 0, 0, 0, 0, 0, 0, 0]])) = true ∧
    isNext (exec (.overflowPacket 6) tracing) tracing = true := by decide +kernel

theorem test_trace_ring : ok (exec (.traceRingConfig .base 0x3000) run0) (fun t => decide (t.obj 0x7800 4 = 0x3000)) = true ∧
    ok (exec (.traceRingConfig .size 0x2000) run0) (fun t => decide (t.obj 0x7800 5 = 0x2000)) = true ∧
    ok (exec (.traceRingConfig .size 0x2001) run0) (fun t => decide (t.kpp.result = 6)) = true := by decide +kernel

/-- A part with SECURE set; a TAP out of reset; the test mode. -/
def secureSX : State := withObjs run0 [(0x7F00, 5, 1)]
def tapped : State := { run0 with jtag := { inReset := false } }
def testable : State := { tapped with power := { tapped.power with dev := .boot, straps := { chipId := 0, bootSel := 0, testN := false } } }

theorem test_debug_lock : objKey 0x1202 0 ∉ run0.onceSet ∧ run0.tapHeld = false ∧
    ok (exec .debugLock secureSX) (fun t => t.tapHeld && t.jtag.inReset &&
      isNext (exec (.jtagAccess .trstHigh) t) t) = true ∧
    ok (exec .debugLock tapped) (fun t => !t.tapHeld && !t.jtag.inReset) = true := by decide +kernel

theorem test_jtag : tapped.tapHeld = false ∧ tapped.jtag.inReset = false ∧ run0.jtag.inReset = true ∧
    isNext (exec (.jtagAccess (.writeSram 4 [7])) run0) run0 = true ∧
    ok (exec (.jtagAccess (.writeSram 4 [7, 8])) tapped) (fun t => ok (exec (.jtagAccess (.readSram 5 1)) t) fun u =>
      decide (u.jtag.readBack = [8])) = true ∧
    ok (exec (.jtagAccess (.instruction .extest)) tapped) (fun t => decide (t.jtag.instruction = .extest)) = true := by
  decide +kernel

theorem test_manufacturing : testable.testMode = true ∧
    (match exec (.jtagAccess .manufacturingTest) testable with
      | .fault .manufacturingTestMode => true
      | .next _ => false
      | .refused _ => false) = true := by decide +kernel

/-! ### The queue, and the tables' form -/

/-- Two commands wait: a step runs the first. -/
def pendingTwo : State := { run0 with pending := [.portEnable 4, .portEnable 1] }

theorem test_step : ok (step pendingTwo) (fun t => decide (t.obj 0x3300 1 = 4) &&
      decide (t.pending = [.portEnable 1])) = true ∧
    ok (step run0) (fun t => decide (t.pending = []) && decide (t.cycle = 1)) = true := by decide +kernel

/-- A thread's instruction in front of the queue of a well-formed state. -/
def addNext : State := { danto0 with pending := [.add thA 8 5 6] }

theorem test_tables : addNext.wf ∧ dantoEncode (.add thA 8 5 6) ≠ none ∧ ok (step addNext) (fun t =>
    decide ((t.context 67).reg 8 = 5)) = true := by unfold State.wf; decide +kernel

/-! ### Ill-formed commands -/

/-- A request packet whose address is not global, and one with data that a read does not carry. -/
def farPkt : Packet := pkt 0 5 0x20000000000000 4 []
def loaded : Packet := pkt 0 5 0x1000 4 [1, 2, 3, 4]

theorem test_ill_formed_time : (Instr.hostEpochMark []).wf = false ∧ (Instr.tick 0 0 7 1000000 0 0).wf = false ∧
    (Instr.tick 0 0 7 999999 0 0).wf = true := by decide

theorem test_ill_formed_queues : (Instr.doorbell 0 0 0 1).wf = false ∧ (Instr.doorbell 0 61 4 1).wf = false ∧
    (Instr.doorbell 0 60 4 1).wf = true ∧ (Instr.privilegedOpcode thA (.fromThread 0)).wf = false ∧
    (Instr.privilegedOpcode thA (.fromThread 0x8000000000000000)).wf = false ∧
    (Instr.privilegedOpcode thA (.fromThread 0x7FFFFFFFFFFFFFFF)).wf = true := by decide

theorem test_ill_formed_matrix : (Instr.windowWrite 11 0 31 [1, 2]).wf = false ∧ (Instr.windowWrite 11 0 31 []).wf = false ∧
    (Instr.registerSlicesWrite true 11 17 [1, 2]).wf = false ∧ (Instr.alertPost thA 3 0).wf = false ∧
    (Instr.registerWrite .bar0 0 []).wf = false ∧ (Instr.registerWrite (.bar0Read 0) 0 []).wf = false ∧
    (Instr.registerWrite (.bar2Read 4) 0 [0]).wf = false ∧ (Instr.registerWrite (.configRead .msixControl) 0 [0]).wf = false ∧ (Instr.bar4Access 0 (.read 0)).wf = false ∧
    (Instr.bar4Access 0 (.write [])).wf = false := by decide

theorem test_ill_formed_trellis : (Instr.rdReq 0 0 farPkt).wf = false ∧ (Instr.rdReq 0 0 loaded).wf = false ∧
    (Instr.bulkRd 0 0 loaded).wf = false ∧ (Instr.wrReq 0 0 loaded).wf = true ∧
    (Instr.bulkWr 0 0 { loaded with len := 5 }).wf = false ∧ (Instr.atReq 0 0 { loaded with data := [], len := 2 }).wf = false ∧
    (Instr.rdRsp 0 0 { loaded with error := true }).wf = false ∧ (Instr.wrRsp 0 0 loaded).wf = false ∧
    (Instr.atRsp 0 0 loaded).wf = true ∧ (Instr.audit 0 0 { held := [0], returned := [0, 0, 0, 0] }).wf = false ∧
    (Instr.audit 0 0 { held := [0, 0, 0, 0], returned := [] }).wf = false ∧
    (Instr.controlFlit 0 { ack := 0, nak := false, returned := [0] }).wf = false ∧
    (Instr.controlFlit 0 { ack := 0, nak := false, returned := [0, 0, 0, 0], sizes := [96] }).wf = false := by decide

theorem test_ill_formed_kpp : (Instr.read (kreq 0x1102 0 0 [])).wf = false ∧
    (Instr.write { kreq 0x1102 0 0 [] with length := 257 }).wf = false ∧ (Instr.readSeg (kreq 0 0 0 (zeros 56))).wf = true ∧
    (Instr.segAbort { kreq 0 0 0 (zeros 56) with transport := .can }).wf = false ∧
    (Instr.kppRsp 0 0 { dest := 0, src := 5, cmd := 0x81, frame := kreq 0 0 0 (zeros 57) }).wf = false ∧
    (Instr.kppFwd 0 0 { dest := 0, src := 5, cmd := 1, frame := kreq 0 0 0 [] }).wf = false ∧
    (Instr.reassignment 0 2 (2 ^ 256)).wf = false ∧ (Instr.commandImage (zeros 65)).wf = false := by decide

theorem test_ill_formed_power : (Instr.thermalWarn 0 (2 ^ 31)).wf = false ∧ (Instr.thermalClear (-(2 ^ 31) - 1)).wf = false ∧
    (Instr.supplyFault 3 65536).wf = false ∧ (Instr.imageBlockWrite []).wf = false ∧
    (Instr.jtagAccess (.readSram 0 0)).wf = false ∧ (Instr.jtagAccess (.writeRegister 0 [])).wf = false := by decide

end Sys2Proof.Machine.Tests
end

/-! SUPPORT AND PROOFS. Skipped Almanac entries, and the exchange of pages (R37, R42 to R45, R289). -/

namespace Sys2Proof.Machine

/-! ### A due entry that may not take effect -/

/-- Taking an entry off moves the Almanac's place and backlog alone. -/
theorem State.popFiring_frame (s : State) (b : Backlog) : ∃ c l,
    s.popFiring b = { s with almanac := { s.almanac with cursor := c, backlog := l } } := by
  unfold State.popFiring
  split
  case h_1 r _ => exact ⟨s.almanac.cursor, r, rfl⟩
  case h_2 => exact ⟨_, s.almanac.backlog, rfl⟩

/-- Going to the cycle in which an entry can fire moves the cycle and the Almanac's note of it alone. -/
theorem State.fireCycle_frame (s : State) : ∃ n l,
    s.fireCycle = { s with cycle := n, almanac := { s.almanac with lastFire := l } } := by
  unfold State.fireCycle
  split
  case isTrue => exact ⟨_, _, rfl⟩
  case isFalse => exact ⟨s.cycle, _, rfl⟩

/-- Whether an entry takes effect rests on the objects and the power state. -/
theorem State.takesEffect_congr {s t : State} (ho : t.objs = s.objs) (hp : t.power = s.power) (b : Backlog) :
    t.takesEffect b = s.takesEffect b := by
  have e : t.takesEffect b = ({ s with objs := t.objs, power := t.power } : State).takesEffect b := rfl
  rw [e, ho, hp]

/-- State u counts one skipped entry more than s, and what the actions of entries work on is as in s (R45). -/
def CountsSkipped (s u : State) : Prop :=
  u.obj 0x2103 6 = (s.obj 0x2103 6 + 1) % 2 ^ 32 ∧ u.mem = s.mem ∧ u.queues = s.queues ∧ u.counters = s.counters ∧
    u.streams = s.streams ∧ u.almanac.timers = s.almanac.timers

/-- An entry that may not take effect counts as skipped. -/
theorem State.fired_skipped (s : State) (b : Backlog) (f : State → Backlog → State)
    (h : (s.popFiring b).takesEffect b = false) : CountsSkipped s (s.fired b f) := by
  have e : s.fired b f = ((s.popFiring b).bump 0x2103 6).emit 15 false (partByte (entPart b.bits.toNat)) 0x31 b.payload :=
    if_neg (by simp [h])
  obtain ⟨c, l, hpop⟩ := s.popFiring_frame b
  rw [e, hpop]
  refine ⟨?_, by simp, by simp, by simp, by simp, by simp⟩
  rw [State.emit_obj_low _ _ _ _ _ _ _ _ _ (by decide), State.bump_obj_same]
  rfl

/-- So it is when the entry comes up as the next in order, whatever its action would do. -/
theorem State.fire_skipped (s : State) (k : EntryId) (t act : Nat) (f : State → Backlog → State) (b : Backlog)
    (hn : (s.advance t).nextFiring = some b) (hk : b.index = k.val) (ha : entAction b.bits.toNat = act)
    (h : ((s.advance t).popFiring b).takesEffect b = false) : CountsSkipped s (s.fire k t act f) := by
  have e : s.fire k t act f = (s.advance t).fireCycle.fired b f := by simp [State.fire, hn, hk, ha]
  obtain ⟨n, l, hc⟩ := (s.advance t).fireCycle_frame
  have hskip : ((s.advance t).fireCycle.popFiring b).takesEffect b = false := by
    obtain ⟨_, _, h1⟩ := (s.advance t).fireCycle.popFiring_frame b
    obtain ⟨_, _, h2⟩ := (s.advance t).popFiring_frame b
    rw [← h, h1, h2, hc]
    exact State.takesEffect_congr rfl rfl b
  have := State.fired_skipped _ b f hskip
  rw [e]
  rwa [hc] at this ⊢

/-- An entry that is not the next to come up takes the time and does nothing (R34). -/
theorem State.fire_not_next (s : State) (k : EntryId) (t act : Nat) (f : State → Backlog → State)
    (h : ∀ b, (s.advance t).nextFiring = some b → b.index ≠ k.val ∨ entAction b.bits.toNat ≠ act) :
    s.fire k t act f = s.advance t := by
  unfold State.fire
  dsimp only
  split
  case h_1 b hn => exact if_neg (by simpa [← not_and_or] using h b hn)
  case h_2 => rfl

/-- The commands of the Almanac's actions but `REST` and `WAKE`, each with its action's code (Table EA-5). -/
def almanacActions (k : EntryId) (t : Nat) : List (Instr × Nat) :=
  [(.ingestCutoff k t, 1), (.stepOpen k t, 2), (.almanacRelease k t, 3), (.almanacSignal k t, 4),
    (.stepCommit k t, 5), (.almanacPublish k t, 6), (.timerStart k t, 7), (.timerStop k t, 8), (.prefetch k t, 0xB)]

/-- Each is the firing of its entry with an effect of its own. -/
theorem exec_almanacActions (s : State) (k : EntryId) (t : Nat) :
    ∀ e ∈ almanacActions k t, ∃ f, exec e.1 s = .next (s.fire k t e.2 f) := by
  simp only [almanacActions, List.forall_mem_cons]
  exact ⟨⟨_, rfl⟩, ⟨_, rfl⟩, ⟨_, rfl⟩, ⟨_, rfl⟩, ⟨_, rfl⟩, ⟨_, rfl⟩, ⟨_, rfl⟩, ⟨_, rfl⟩, ⟨_, rfl⟩, by simp⟩

/-! ### Writes of the exchange request -/

/-- While the Keeper serves requests, a write leaves its abort code. -/
theorem State.answered_serves {s : State} (h : s.keeperServes = true) (t : State) (code : Nat) :
    s.answered (t, code) = { t with kpp := { t.kpp with result := BitVec.ofNat 8 code } } :=
  if_pos h

/-- A value above 2 is out of range (R44). -/
theorem State.exchangeWrite_range (s : State) (v : Nat) (h : 2 < v) : s.exchangeWrite v = (s, 0x06) :=
  if_pos h

/-- The active page, or any page while an exchange is validating or pending, is refused (R44). -/
theorem State.exchangeWrite_refused (s : State) (v : Nat) (h1 : 1 ≤ v) (h2 : v ≤ 2)
    (h : v = s.obj 0x2103 1 ∨ s.obj 0x2103 3 = 1 ∨ s.obj 0x2103 3 = 2) : s.exchangeWrite v = (s, 0x09) := by
  unfold State.exchangeWrite
  dsimp only
  rw [if_neg (by omega), if_neg (by omega), if_pos]
  simp only [Bool.or_eq_true, decide_eq_true_eq, or_assoc]
  exact h

/-- The inactive page is taken for validation (R42). -/
theorem State.exchangeWrite_starts (s : State) (v : Nat) (h1 : 1 ≤ v) (h2 : v ≤ 2) (ha : v ≠ s.obj 0x2103 1)
    (hv : s.obj 0x2103 3 ≠ 1) (hp : s.obj 0x2103 3 ≠ 2) :
    s.exchangeWrite v = ((s.setObj 0x2103 2 v).setObj 0x2103 3 1, 0) := by
  have h0 : v ≠ 0 := by omega
  simp [State.exchangeWrite, State.activePage, h0, h2, ha, hv, hp]

/-- A cancel withdraws an exchange that is validating or pending (R44). -/
theorem State.exchangeWrite_cancels (s : State) (h : s.obj 0x2103 3 = 1 ∨ s.obj 0x2103 3 = 2) :
    s.exchangeWrite 0 = ((s.setObj 0x2103 2 0).setObj 0x2103 3 0, 0) := by
  simp [State.exchangeWrite, h]

/-- At any other time a cancel has no effect (R44). -/
theorem State.exchangeWrite_cancels_none (s : State) (hv : s.obj 0x2103 3 ≠ 1) (hp : s.obj 0x2103 3 ≠ 2) :
    s.exchangeWrite 0 = (s, 0) := by
  simp [State.exchangeWrite, hv, hp]

/-! ### Validation -/

theorem exec_pageValidationDone (s : State) (h : s.obj 0x2103 3 = 1) :
    exec .pageValidationDone s = .next (match s.pageReason (3 - s.obj 0x2103 1) with
      | none => s.setObj 0x2103 3 2
      | some r => ((s.setObj 0x2103 3 3).setObj 0x2103 4 r).raise 0x0103 deviceWide) :=
  congrArg Host.Outcome.next (if_pos h)

/-! ### The boundary at which a pending page becomes the active one (R43) -/

/-- A pending exchange makes the other page the active one and is over. -/
theorem State.exchangePage_pending (s : State) (h : s.obj 0x2103 3 = 2) :
    s.exchangePage.obj 0x2103 1 = 3 - s.obj 0x2103 1 ∧ s.exchangePage.obj 0x2103 3 = 0 := by
  have taken (u : State) (ho : u.objs = ((s.setObj 0x2103 1 (3 - s.obj 0x2103 1)).setObj 0x2103 3 0).objs)
      (who : BitVec 8) (p0 : Nat) :
      (u.emit 15 false who 0x32 p0).obj 0x2103 1 = 3 - s.obj 0x2103 1 ∧ (u.emit 15 false who 0x32 p0).obj 0x2103 3 = 0 := by
    rw [State.emit_obj_low _ _ _ _ _ _ _ _ _ (by decide), State.emit_obj_low _ _ _ _ _ _ _ _ _ (by decide),
      State.obj_congr ho, State.obj_congr ho, State.obj_setObj_other _ _ _ _ _ _ (by decide)]
    exact ⟨State.obj_setObj_same .., State.obj_setObj_same ..⟩
  rw [State.exchangePage, if_pos h]
  refine taken _ ?_ _ _
  split <;> rfl

/-- Entering a Tracker state leaves the objects below those of faults and trace. -/
theorem State.trackerTo_obj_low (s : State) (st : TrackerState) (i j : Nat) (h : objKey i j < 0x700000) :
    (s.trackerTo st).obj i j = s.obj i j := by
  unfold State.trackerTo
  dsimp only
  split
  · rfl
  · rw [State.emit_obj_low _ _ _ _ _ _ _ _ _ h]
    split <;> rfl

/-- So does a change of the epoch source. -/
theorem State.changeSource_obj_low (s : State) (x : Int) (i j : Nat) (h : objKey i j < 0x700000) :
    (s.changeSource x).obj i j = s.obj i j := by
  unfold State.changeSource
  dsimp only
  split
  · rfl
  · split
    · exact State.trackerTo_obj_low _ _ _ _ h
    · split
      · exact State.trackerTo_obj_low _ _ _ _ h
      · rfl

/-- A slot that misses changes memory and its partition's counters of object 0x4020. -/
theorem State.missSlot_obj_low (s : State) (p k i j : Nat) (h : objKey i j < 0x402000) :
    (s.missSlot p k).obj i j = s.obj i j := by
  obtain ⟨m, e⟩ := State.wrBytes_mem s (memKey 1 (s.slotOff p k)) (natLe
    ({ (s.header p k).unbound with miss := Min.min ((s.header p k).miss + 1) (2 ^ 32 - 1) } : Header).toNat 24)
  unfold State.missSlot State.setHeader
  dsimp only
  rw [State.bump_obj_other _ _ _ _ _ _ (by unfold objKey at *; omega), e]
  rfl

/-- A step that misses leaves the objects below those counters. -/
theorem State.missStep_obj_low (s : State) (p i j : Nat) (h : objKey i j < 0x402000) :
    (s.missStep p).obj i j = s.obj i j := by
  unfold State.missStep
  split
  case isFalse => rfl
  case isTrue =>
    exact List.foldlRecOn (motive := fun u : State => u.obj i j = s.obj i j) (s.boundSlots p)
      (fun s k => s.missSlot p k) rfl fun u hu k _ => (State.missSlot_obj_low u p k i j h).trans hu

theorem State.missAll_obj_low (s : State) (i j : Nat) (h : objKey i j < 0x402000) :
    s.missAll.obj i j = s.obj i j :=
  List.foldlRecOn (motive := fun u : State => u.obj i j = s.obj i j) (List.range 8) State.missStep rfl
    fun u hu p _ => (State.missStep_obj_low u p i j h).trans hu

/-- A state request taken at the boundary leaves those objects too. -/
theorem State.takeRequest_obj_low (s : State) (i j : Nat) (h : objKey i j < 0x402000) :
    s.takeRequest.obj i j = s.obj i j := by
  unfold State.takeRequest
  split
  · rfl
  · exact State.missAll_obj_low _ _ _ h
  · rfl

theorem State.msix_objs (s : State) (v : Nat) : (s.msix v).objs = s.objs := by
  obtain ⟨_, _, e⟩ := State.msix_frame s v
  rw [e]

theorem State.endEpoch_objs (s : State) (early : Bool) : (s.endEpoch early).objs = s.objs := by
  unfold State.endEpoch State.toBacklog
  dsimp only
  split <;> rfl

/-- Of the objects below those of the partitions' steps, the start of an epoch changes those of the exchange alone. -/
theorem State.startEpoch_obj_low (s : State) (e : BitVec 48) (x : Int) (i j : Nat) (h : objKey i j < 0x402000) :
    ∃ u : State, u.objs = s.objs ∧ (s.startEpoch e x).obj i j = u.exchangePage.obj i j := by
  refine ⟨{ s with tracker := { s.tracker with epoch := e, start := x, running := true, hold := none,
                                               outRise := some (x + 128) },
                   almanac := { s.almanac with cursor := 0 } }, rfl, ?_⟩
  have kept (u : State) : (u.changeSource x).takeRequest.obj i j = u.obj i j :=
    (State.takeRequest_obj_low _ i j h).trans (State.changeSource_obj_low u x i j (by omega))
  unfold State.startEpoch
  dsimp only
  split
  · exact (State.obj_congr (State.msix_objs _ _) i j).trans (kept _)
  · exact kept _

/-- At the beginning of an epoch a pending page is the active one and no exchange is under way. -/
theorem State.beginEpoch_exchanges (s : State) (x : Int) (early : Bool) (h : s.obj 0x2103 3 = 2) :
    (s.beginEpoch x early).obj 0x2103 1 = 3 - s.obj 0x2103 1 ∧ (s.beginEpoch x early).obj 0x2103 3 = 0 := by
  have read (u : State) (hu : u.objs = (s.endEpoch early).objs) (j : Nat) : u.obj 0x2103 j = s.obj 0x2103 j :=
    State.obj_congr (hu.trans (State.endEpoch_objs s early)) _ j
  unfold State.beginEpoch State.beginWith
  obtain ⟨u, hu, active⟩ := (s.endEpoch early).startEpoch_obj_low (s.epoch + 1) x 0x2103 1 (by decide)
  obtain ⟨w, hw, status⟩ := (s.endEpoch early).startEpoch_obj_low (s.epoch + 1) x 0x2103 3 (by decide)
  rw [active, status, ← read u hu 1]
  exact ⟨(u.exchangePage_pending ((read u hu 3).trans h)).1, (w.exchangePage_pending ((read w hw 3).trans h)).2⟩

/-- Under the divider an epoch begins at the boundary, after an update of the Tracker that leaves every object. -/
theorem exec_epochBoundary_divider (s : State) (hr : s.tracker.running = true) (hd : s.tracker.source = .divider)
    (hl : s.tracker.state = .locked) :
    ∃ (u : State) (x : Int), u.objs = s.objs ∧ exec .epochBoundary s = .next (u.beginEpoch x false) := by
  have e : exec .epochBoundary s = execEpochBoundary s := rfl
  rw [e]
  unfold execEpochBoundary
  simp only [hr, hd, hl, Bool.not_true, Bool.false_eq_true, if_false, decide_true, Bool.and_self, if_true]
  refine ⟨_, _, ?_, rfl⟩
  split <;> rfl

/-! ### The obligation -/

/-- Settles O30: the entries by what a skipped or waiting entry leaves, the exchange by the equations of the writes to its
request object, of validation, and of the boundary. -/
theorem almanacSkipsAndPages : Obligations.AlmanacSkipsAndPages := by
  unfold Obligations.AlmanacSkipsAndPages
  constructor
  · intro s k t e he
    obtain ⟨f, hf⟩ := exec_almanacActions s k t e he
    rw [hf]
    constructor
    · intro b hn hk ha hskip
      exact ⟨_, rfl, State.fire_skipped s k t e.2 f b hn hk ha hskip⟩
    · intro hnot
      rw [State.fire_not_next s k t e.2 f hnot]
  · intro s page hs
    have request : exec (.almanacExchangeRequest page) s = .next (s.answered (s.exchangeWrite page.toNat)) := rfl
    have cancel : exec .almanacExchangeCancel s = .next (s.answered (s.exchangeWrite 0)) := rfl
    rw [request, cancel]
    refine ⟨fun h1 h2 ha hv hp => ?starts, fun h1 h2 h => ?refused, fun h => ?cancels, fun hv hp => ?noCancel,
      fun h => ?range, fun hv hr => ?valid, fun r hv hr => ?bad, fun hp hr hd hl => ?boundary⟩
    case starts =>
      rw [State.exchangeWrite_starts s _ h1 h2 ha hv hp, State.answered_serves hs]
      exact ⟨_, rfl, State.obj_setObj_same .., rfl⟩
    case refused =>
      rw [State.exchangeWrite_refused s _ h1 h2 h, State.answered_serves hs]
      rfl
    case cancels =>
      rw [State.exchangeWrite_cancels s h, State.answered_serves hs]
      refine ⟨_, rfl, State.obj_setObj_same .., ?_, rfl⟩
      exact (State.obj_setObj_other _ _ _ _ _ _ (by decide)).trans (State.obj_setObj_other _ _ _ _ _ _ (by decide))
    case noCancel =>
      rw [State.exchangeWrite_cancels_none s hv hp, State.answered_serves hs]
      rfl
    case range =>
      rw [State.exchangeWrite_range s _ h, State.answered_serves hs]
      rfl
    case valid =>
      rw [exec_pageValidationDone s hv, hr]
      exact ⟨_, rfl, State.obj_setObj_same .., State.obj_setObj_other _ _ _ _ _ _ (by decide), rfl⟩
    case bad =>
      rw [exec_pageValidationDone s hv, hr]
      refine ⟨_, rfl, ?_, ?_, ?_, ?_⟩
      · rw [State.raise_obj_low _ _ _ _ _ _ _ _ _ (by decide), State.obj_setObj_other _ _ _ _ _ _ (by decide),
          State.obj_setObj_same]
      · rw [State.raise_obj_low _ _ _ _ _ _ _ _ _ (by decide), State.obj_setObj_same]
      · rw [State.raise_obj_low _ _ _ _ _ _ _ _ _ (by decide), State.obj_setObj_other _ _ _ _ _ _ (by decide),
          State.obj_setObj_other _ _ _ _ _ _ (by decide)]
      · have counted := (((s.setObj 0x2103 3 3).setObj 0x2103 4 r).raise_spec 0x0103 deviceWide 0 0 0 0 (by decide)).1
        rwa [State.obj_setObj_other _ _ _ _ _ _ (by decide), State.obj_setObj_other _ _ _ _ _ _ (by decide)] at counted
    case boundary =>
      obtain ⟨u, x, ho, e⟩ := exec_epochBoundary_divider s hr hd hl
      have exchanged := u.beginEpoch_exchanges x false ((State.obj_congr ho _ _).trans hp)
      rw [State.obj_congr ho] at exchanged
      exact ⟨_, e, exchanged⟩

end Sys2Proof.Machine

/-! SUPPORT AND PROOFS. The faults that stop a thread at issue: addresses, targets, selectors, operands (R86, R91, R95,
R105, Table TD-9). -/

namespace Sys2Proof.Machine

/-! ### An instruction that stops its thread -/

/-- Instruction x of thread th is executed and stops the thread with a fault (R105): its record names the instruction, the
context is as before but in FAULTED, and neither memory nor a counter nor the matrix is touched. -/
def StopsThread (s : State) (th : Thread) (x : Instr) (code : Nat) : Prop :=
  ∃ t w, exec x s = .next t ∧ dantoEncode x = some (th, w) ∧
    Raised s t code (partByte (s.contextPart (Thread.num th))) (Thread.num th / 64)
      (s.context (Thread.num th)).pc.toNat (s.threadId (Thread.num th)) w ∧
    t.context (Thread.num th) = { s.context (Thread.num th) with state := .faulted, wait := .none } ∧
    t.mem = s.mem ∧ t.counters = s.counters ∧ t.matrix = s.matrix

/-- The state that an instruction of th works on: the order of issue has moved on to it (R81). -/
def State.atTurn (s : State) (th : Thread) : State := { s with lastIssue := tset s.lastIssue th.bed th.ctx 63 }

/-- An instruction whose work is a thread fault naming its own word stops the thread. -/
theorem stopsThread_of_issue {s : State} {th : Thread} {x : Instr} {code op w : Nat} {srcs : List Reg}
    {f : State → Nat → Context → State} (hx : exec x s = .next (s.issueOn th op srcs f))
    (hw : dantoEncode x = some (th, w)) (hi : s.mayIssue th srcs) (hc : code < 0x0F01)
    (hf : f (s.atTurn th) (Thread.num th) (s.context (Thread.num th)) =
      (s.atTurn th).threadFault (Thread.num th) code w) : StopsThread s th x code := by
  obtain ⟨hturn, hready⟩ := hi
  obtain ⟨hraised, hctx, -, hmem, hcounters, hmatrix, -⟩ := (s.atTurn th).threadFault_spec (Thread.num th) code w hc
  have hrun : s.issueOn th op srcs f = (s.atTurn th).threadFault (Thread.num th) code w :=
    (s.issueOn_runs th op srcs f hturn hready).trans hf
  exact ⟨_, w, hx.trans (congrArg _ hrun), hw, hraised, hctx, hmem, hcounters, hmatrix⟩

/-! ### Addresses (R91, Table TD-4) -/

/-- An atomic's access, for which the region matters (R91). -/
def AccessKind.isAtomic : AccessKind → Bool
  | .atomic _ => true
  | _ => false

/-- An address that R91 forbids to an access of this kind is not sent. -/
theorem addressOk_eq_false {addr size : Nat} {kind : AccessKind} {d : Reg}
    (h : 2 ^ 61 ≤ addr ∨ 24 ≤ bits addr 52 48 ∨ bits addr 52 48 = 2 ∨ addr % size ≠ 0 ∨ (kind = .atomic d ∧
      ¬(bits addr 52 48 = 0 ∨ (4 ≤ bits addr 52 48 ∧ bits addr 52 48 < 8) ∨ 20 ≤ bits addr 52 48))) :
    addressOk addr size kind.isAtomic = false := by
  rw [Bool.eq_false_iff]
  intro hok
  simp only [addressOk, atomicRegion, Bool.and_eq_true, Bool.or_eq_true, Bool.not_eq_true', decide_eq_true_eq] at hok
  obtain ⟨⟨⟨⟨hlow, hreserved⟩, hregion⟩, haligned⟩, hatomic⟩ := hok
  rcases h with h | h | h | h | ⟨rfl, h⟩
  · omega
  · omega
  · exact hreserved h
  · exact h haligned
  · simp only [AccessKind.isAtomic, Bool.true_eq_false, false_or] at hatomic
    omega

/-- Every access instruction is `State.access` with its own word, sources, size and kind. -/
theorem exec_accessTable {s : State} {th : Thread} {d a b : Reg} {i : Imm} {c : Context}
    {e : Instr × List Reg × Nat × AccessKind × Op} (he : e ∈ accessTable th d a b i c) :
    ∃ op d' b' mk, exec e.1 s = .next (s.access th op d' a b' i e.2.1 e.2.2.1 e.2.2.2.1 mk) ∧
      dantoEncode e.1 = some (th, dantoWord op d' a b' i) := by
  simp only [accessTable, List.mem_cons, List.not_mem_nil, or_false] at he
  rcases he with rfl | rfl | rfl | rfl | rfl | rfl | rfl | rfl | rfl | rfl | rfl | rfl | rfl | rfl | rfl | rfl | rfl <;>
    exact ⟨_, _, _, _, rfl, rfl⟩

/-- An access with room whose address may not be sent stops the thread. -/
theorem access_stopsThread {s : State} {th : Thread} {x : Instr} {op size : Nat} {d a b : Reg} {i : Imm}
    {srcs : List Reg} {kind : AccessKind} {mk : Context → Op}
    (hx : exec x s = .next (s.access th op d a b i srcs size kind mk))
    (hw : dantoEncode x = some (th, dantoWord op d a b i)) (hi : s.mayIssue th srcs)
    (hroom : (s.context (Thread.num th)).outstanding.length < 16)
    (hbad : addressOk (accessAddress s th a i).toNat size kind.isAtomic = false) : StopsThread s th x 0x0302 := by
  refine stopsThread_of_issue hx hw hi (by decide) ?_
  have hfull : ¬ (s.context (Thread.num th)).outstanding.length ≥ maxOutstanding := Nat.not_le.2 hroom
  cases kind <;> exact (if_neg hfull).trans (if_pos (congrArg (!·) hbad))

/-! ### Targets (R95) -/

theorem pcOk_iff (pc : W64) : pcOk pc = true ↔ goodTarget pc := by
  rw [pcOk, Bool.and_eq_true, decide_eq_true_iff, decide_eq_true_iff]
  exact Iff.rfl

theorem pcOk_of_bad {pc : W64} (h : ¬ goodTarget pc) : ¬ pcOk pc = true := fun hok => h ((pcOk_iff pc).1 hok)

/-- Every conditional branch is `State.branch` with its own word, on its condition of Table TD-7. -/
theorem exec_branchTable {s : State} {th : Thread} {a b : Reg} {i : Imm} {e : Instr × (W64 → W64 → Prop)}
    (he : e ∈ branchTable th a b i) :
    ∃ op test, exec e.1 s = .next (s.branch th op a b i test) ∧
      dantoEncode e.1 = some (th, dantoWord op 0 a b i) ∧ ∀ x y, test x y = true ↔ e.2 x y := by
  simp only [branchTable, List.mem_cons, List.not_mem_nil, or_false] at he
  rcases he with rfl | rfl | rfl | rfl | rfl | rfl <;> exact ⟨_, _, rfl, rfl, fun _ _ => decide_eq_true_iff⟩

/-- A branch taken to a bad target stops the thread. -/
theorem branch_stopsThread {s : State} {th : Thread} {a b : Reg} {i : Imm} {e : Instr × (W64 → W64 → Prop)}
    (he : e ∈ branchTable th a b i) (hi : s.mayIssue th [a, b])
    (hbad : ¬ goodTarget ((s.context (Thread.num th)).pc + i.signExtend 64))
    (htaken : e.2 ((s.context (Thread.num th)).reg a) ((s.context (Thread.num th)).reg b)) :
    StopsThread s th e.1 0x0302 := by
  obtain ⟨op, test, hx, hw, htest⟩ := exec_branchTable he (s := s)
  exact stopsThread_of_issue hx hw hi (by decide) ((if_pos ((htest _ _).2 htaken)).trans (if_neg (pcOk_of_bad hbad)))

/-- A branch not taken goes on behind itself whatever its target. -/
theorem branch_notTaken {s : State} {th : Thread} {a b : Reg} {i : Imm} {e : Instr × (W64 → W64 → Prop)}
    (he : e ∈ branchTable th a b i) (hi : s.mayIssue th [a, b])
    (hnot : ¬ e.2 ((s.context (Thread.num th)).reg a) ((s.context (Thread.num th)).reg b)) :
    ∃ t, exec e.1 s = .next t ∧ OnlyContext s t (Thread.num th) ∧ t.context (Thread.num th) =
      { s.context (Thread.num th) with pc := (s.context (Thread.num th)).pc + 8 } := by
  obtain ⟨op, test, hx, -, htest⟩ := exec_branchTable he (s := s)
  obtain ⟨hturn, hready⟩ := hi
  have hrun : s.branch th op a b i test = (s.atTurn th).retire (Thread.num th) (s.context (Thread.num th)) :=
    (s.issueOn_runs th op [a, b] _ hturn hready).trans (if_neg fun h => hnot ((htest _ _).1 h))
  exact ⟨_, hx.trans (congrArg _ hrun), s.retire_only _ _ _⟩

/-- `JAL` to a bad target stops the thread. -/
theorem jal_stopsThread {s : State} {th : Thread} {d : Reg} {i : Imm} (hi : s.mayIssue th [])
    (hbad : ¬ goodTarget ((s.context (Thread.num th)).pc + i.signExtend 64)) :
    StopsThread s th (.jal th d i) 0x0302 :=
  stopsThread_of_issue rfl rfl hi (by decide) (if_neg (pcOk_of_bad hbad))

/-- `JALR` to a bad target stops the thread. -/
theorem jalr_stopsThread {s : State} {th : Thread} {d a : Reg} {i : Imm} (hi : s.mayIssue th [a])
    (hbad : ¬ goodTarget ((s.context (Thread.num th)).reg a + i.signExtend 64)) :
    StopsThread s th (.jalr th d a i) 0x0302 :=
  stopsThread_of_issue rfl rfl hi (by decide) (if_neg (pcOk_of_bad hbad))

/-! ### Counter selectors (R86) -/

/-- The bed of a 10-bit selector. -/
theorem bits_selector_bed {sel : Nat} (h : sel < 1024) : bits sel 9 8 = sel / 256 := by
  simp only [bits, Nat.shiftRight_eq_div_pow]
  omega

/-- A 10-bit selector names counter 64 × bed + number. -/
theorem selCounter_eq {sel : Nat} (h : sel < 1024) : selCounter sel = sel / 256 * 64 + sel % 64 := by
  rw [selCounter, bits_selector_bed h]
  simp [bits]

/-- A selector that a thread of partition p may use: bits [7:6] zero, the counter p's own. -/
theorem State.selOk_iff (s : State) (p : Nat) {sel : Nat} (h : sel < 1024) :
    s.selOk p sel = true ↔ sel / 64 % 4 = 0 ∧ s.owns p 2 (sel / 256 * 64 + sel % 64) = true := by
  simp [State.selOk, selCounter_eq h, bits, Nat.shiftRight_eq_div_pow]

theorem selectorOf_lt (c : Context) (a : Reg) (i : Imm) : selectorOf c a i < 1024 := Nat.mod_lt _ (by decide)

section
variable {s : State} {th : Thread} {d a b : Reg} {i : Imm}

/-- `CINC` with a selector that is not the thread's stops it. -/
theorem cinc_stopsThread (hi : s.mayIssue th [a, b])
    (hsel : s.selOk (s.contextPart (Thread.num th)) (selectorOf (s.context (Thread.num th)) a i) = false) :
    StopsThread s th (.cinc th a b i) 0x0302 :=
  stopsThread_of_issue rfl rfl hi (by decide) (if_pos (congrArg (!·) hsel))

/-- So does `CWAIT`. -/
theorem cwait_stopsThread (hi : s.mayIssue th [a, b])
    (hsel : s.selOk (s.contextPart (Thread.num th)) (selectorOf (s.context (Thread.num th)) a i) = false) :
    StopsThread s th (.cwait th a b i) 0x0302 :=
  stopsThread_of_issue rfl rfl hi (by decide) (if_pos (congrArg (!·) hsel))

/-- So does `CREAD`. -/
theorem cread_stopsThread (hi : s.mayIssue th [a])
    (hsel : s.selOk (s.contextPart (Thread.num th)) (selectorOf (s.context (Thread.num th)) a i) = false) :
    StopsThread s th (.cread th d a i) 0x0302 :=
  stopsThread_of_issue rfl rfl hi (by decide) (if_pos (congrArg (!·) hsel))

/-- `CWAIT` on the partition's counter of another bed is an operand out of its range. -/
theorem cwait_otherBed_stopsThread (hi : s.mayIssue th [a, b])
    (hsel : s.selOk (s.contextPart (Thread.num th)) (selectorOf (s.context (Thread.num th)) a i) = true)
    (hbed : selectorOf (s.context (Thread.num th)) a i / 256 ≠ th.bed.val) :
    StopsThread s th (.cwait th a b i) 0x0301 := by
  refine stopsThread_of_issue rfl rfl hi (by decide) ?_
  rw [← bits_selector_bed (selectorOf_lt ..)] at hbed
  exact (if_neg (ne_true_of_eq_false (congrArg (!·) hsel))).trans (if_pos hbed)

/-! ### Operands out of their range (Table TD-9) -/

/-- `EREAD` reads 0, 1 and 2 only. -/
theorem eread_stopsThread (hi : s.mayIssue th []) (h : 3 ≤ i.toNat) : StopsThread s th (.eread th d i) 0x0301 := by
  refine stopsThread_of_issue rfl rfl hi (by decide) ?_
  split
  case h_1 h0 => omega
  case h_2 h1 => omega
  case h_3 h2 => omega
  case h_4 => rfl

/-- There are 8 m-registers. -/
theorem mget_stopsThread (hi : s.mayIssue th []) (h : 8 ≤ i.toNat) : StopsThread s th (.mget th d i) 0x0301 :=
  stopsThread_of_issue rfl rfl hi (by decide) (if_neg (Nat.not_lt.2 h))

/-- `MCLR` takes a mask of the 8 m-registers. -/
theorem mclr_stopsThread (hi : s.mayIssue th []) (h : 256 ≤ i.toNat) : StopsThread s th (.mclr th i) 0x0301 :=
  stopsThread_of_issue rfl rfl hi (by decide) (if_neg (Nat.not_lt.2 h))

end

/-! ### The obligation -/

/-- Settles O7: each instruction is shown to stop its thread (`StopsThread`), and each clause keeps of that what it names. -/
theorem threadFaults : Obligations.ThreadFaults := by
  unfold Obligations.ThreadFaults
  refine ⟨fun s th d a b i e he => ?addresses, fun s th d a b i => ?targets,
    fun s th d a b i => ?selectors, fun s th d i => ?operands⟩
  case addresses =>
    intro addr region hi hroom hbad
    obtain ⟨op, d', b', mk, hx, hw⟩ := exec_accessTable he (s := s)
    obtain ⟨t, w, ht, hw, hraised, hctx, hmem, -, hmatrix⟩ :=
      access_stopsThread hx hw hi hroom (addressOk_eq_false hbad)
    exact ⟨t, w, ht, hw, hraised, by rw [hctx], by rw [hctx], by rw [hctx], hmatrix, hmem⟩
  case targets =>
    intro n c off stops
    have stop {x : Instr} (h : StopsThread s th x 0x0302) : stops x := by
      obtain ⟨t, w, ht, hw, hraised, hctx, hmem, -, -⟩ := h
      exact ⟨t, w, ht, hw, hraised, by rw [hctx], by rw [hctx], by rw [hctx], hmem⟩
    exact ⟨fun hi hbad e he htaken => stop (branch_stopsThread he hi hbad htaken),
      fun hi e he hnot => branch_notTaken he hi hnot, fun hi hbad => stop (jal_stopsThread hi hbad),
      fun hi hbad => stop (jalr_stopsThread hi hbad)⟩
  case selectors =>
    intro n c sel k stops
    have stop {x : Instr} {code : Nat} (h : StopsThread s th x code) : stops x code := by
      obtain ⟨t, w, ht, hw, hraised, hctx, -, hcounters, -⟩ := h
      exact ⟨t, w, ht, hw, hraised, by rw [hctx], by rw [hctx], hcounters⟩
    have hsel : s.selOk (s.contextPart n) sel = true ↔ sel / 64 % 4 = 0 ∧ s.owns (s.contextPart n) 2 k = true :=
      s.selOk_iff _ (selectorOf_lt c a i)
    constructor
    · intro hbad
      have hno : s.selOk (s.contextPart n) sel = false := by
        rw [Bool.eq_false_iff, Ne, hsel]
        rintro ⟨hzero, howns⟩
        exact hbad.elim (· hzero) (by simp [howns])
      exact ⟨fun hi => ⟨stop (cinc_stopsThread hi hno), stop (cwait_stopsThread hi hno)⟩,
        fun hi => stop (cread_stopsThread hi hno)⟩
    · exact fun hzero howns hbed hi => stop (cwait_otherBed_stopsThread hi (hsel.2 ⟨hzero, howns⟩) hbed)
  case operands =>
    intro n c stops hi
    have stop {x : Instr} (h : StopsThread s th x 0x0301) : stops x := by
      obtain ⟨t, w, ht, hw, hraised, hctx, -, -, -⟩ := h
      exact ⟨t, w, ht, hw, hraised, by rw [hctx], by rw [hctx], by rw [hctx]⟩
    exact ⟨fun h => stop (eread_stopsThread hi h), fun h => stop (mget_stopsThread hi h),
      fun h => stop (mclr_stopsThread hi h)⟩

end Sys2Proof.Machine

/-! SUPPORT AND PROOFS. Doorbells: what a value pushes, what is stale, refused or denied (R111 to R113, R116). -/

namespace Sys2Proof.Machine

/-! ### A push: `TAIL`, and `REL` outside held mode (R112, R116) -/

/-- `REL` follows `TAIL` outside held mode; nothing else of the queue moves. -/
theorem State.followTail_queue_same (s : State) (q : Nat) :
    (s.followTail q).queue q = { s.queue q with rel := if s.qHeld q then (s.queue q).rel else (s.queue q).tail } := by
  unfold State.followTail
  split
  · rfl
  · exact State.queue_setQueue_same ..

theorem State.followTail_queue_other (s : State) {q r : Nat} (h : r ≠ q) : (s.followTail q).queue r = s.queue r := by
  unfold State.followTail
  split
  · rfl
  · exact State.queue_setQueue_other _ _ _ _ h

theorem State.followTail_frame (s : State) (q : Nat) : ∃ l, s.followTail q = { s with queues := l } := by
  unfold State.followTail
  split
  · exact ⟨s.queues, rfl⟩
  · exact ⟨_, rfl⟩

theorem State.pushed_queue_same (s : State) (q n : Nat) :
    (s.pushed q n).queue q = { s.queue q with
      tail := (s.queue q).tail + BitVec.ofNat 32 n
      rel := if s.qHeld q then (s.queue q).rel else (s.queue q).tail + BitVec.ofNat 32 n
      pushCycle := s.cycle
      tailBefore := (s.queue q).tailAt s.cycle } := by
  have held (k : Queue) : (s.setQueue q k).qHeld q = s.qHeld q := rfl
  rw [State.pushed, State.followTail_queue_same, State.queue_setQueue_same, held]

theorem State.pushed_queue_other (s : State) {q r : Nat} (n : Nat) (h : r ≠ q) :
    (s.pushed q n).queue r = s.queue r :=
  (State.followTail_queue_other _ h).trans (State.queue_setQueue_other _ _ _ _ h)

/-- A push changes the queues alone. -/
theorem State.pushed_frame (s : State) (q n : Nat) : s.pushed q n = { s with queues := (s.pushed q n).queues } := by
  obtain ⟨l, e⟩ := State.followTail_frame (s.setQueue q { s.queue q with
    tail := (s.queue q).tail + BitVec.ofNat 32 n, pushCycle := s.cycle, tailBefore := (s.queue q).tailAt s.cycle }) q
  have e : s.pushed q n = { s with queues := l } := e
  rw [e]

/-! ### A push or doorbell beyond the credits (R112, R127) -/

/-- `REFUSED` counts it, and nothing else of the queue moves (Table QD-4). -/
theorem State.overflow_queue_same (s : State) (q det1 : Nat) :
    (s.overflow q det1).queue q = { s.queue q with refused := (s.queue q).refused + 1 } := by
  rw [State.overflow, State.raise_queue, State.queue_setQueue_same]

theorem State.overflow_mem (s : State) (q det1 : Nat) : (s.overflow q det1).mem = s.mem :=
  State.raise_mem ..

/-- The fault 0x0401 is counted once. -/
theorem State.overflow_count (s : State) (q det1 : Nat) :
    (s.overflow q det1).obj 0x7014 1 = (s.obj 0x7014 1 + 1) % 2 ^ 32 :=
  (State.raise_spec _ 0x0401 _ _ _ _ _ (by decide)).1

/-! ### What a doorbell value does, by its distance from `TAIL` (R112) -/

section Value

variable {s : State} {q : Nat} {t : W32}

theorem State.doorbellValue_at_tail (h : (t - (s.queue q).tail).toNat = 0) : s.doorbellValue q t = s :=
  if_pos h

theorem State.doorbellValue_stale (h : 2 ^ 31 ≤ (t - (s.queue q).tail).toNat) :
    s.doorbellValue q t = s.setQueue q { s.queue q with stale := (s.queue q).stale + 1 } := by
  unfold State.doorbellValue
  dsimp only
  rw [if_neg (by omega), if_pos h]

theorem State.doorbellValue_within_credits (h1 : 1 ≤ (t - (s.queue q).tail).toNat)
    (hc : (t - (s.queue q).tail).toNat ≤ s.credits q) (h : (t - (s.queue q).tail).toNat < 2 ^ 31) :
    s.doorbellValue q t = s.pushed q (t - (s.queue q).tail).toNat := by
  unfold State.doorbellValue
  dsimp only
  rw [if_neg (by omega), if_neg (by omega), if_pos hc]

theorem State.doorbellValue_beyond_credits (hc : s.credits q < (t - (s.queue q).tail).toNat)
    (h : (t - (s.queue q).tail).toNat < 2 ^ 31) : s.doorbellValue q t = s.overflow q t.toNat := by
  unfold State.doorbellValue
  dsimp only
  rw [if_neg (by omega), if_neg (by omega), if_neg (by omega)]

end Value

/-! ### A denied request (R252, R439) -/

theorem State.denied_queues (s : State) (r : Rq) (d : Denial) : (s.denied r d).queues = s.queues := by
  unfold State.denied
  dsimp only
  split_ifs <;> simp only [State.emit_queues, State.raise_queues]

/-- A request that a window or its target does not grant is what the last-error block shows. -/
theorem State.denied_lastError (s : State) (r : Rq) (w : Nat) :
    (s.denied r (0x0802, w)).matrix.lastError.code = 0x0802 := by
  simp [State.denied]

/-! ### A write of a queue's register block, by the bytes it touches (R111 to R113) -/

section Block

variable {s t : State} {q off width : Nat} {v : W64}

theorem State.blockWrite_value (ho : off = 0) (hw : 4 ≤ width) (hd : s.qDoorbell q = true) :
    s.blockWrite q off width v = (s.doorbellValue q (v.setWidth 32), false) := by
  simp [State.blockWrite, ho, hw, hd]

/-- A queue that threads push denies a doorbell (R111). -/
theorem State.blockWrite_denies (ho : off = 0) (hw : 4 ≤ width) (hd : s.qDoorbell q = false) :
    s.blockWrite q off width v = (s, true) := by
  simp [State.blockWrite, ho, hw, hd]

/-- A write that touches `TAIL` and does not cover it is stale (R112). -/
theorem State.blockWrite_narrow (ho : off < 4) (hw : 1 ≤ width) (hn : off = 0 → width < 4) :
    s.blockWrite q off width v = (s.setQueue q { s.queue q with stale := (s.queue q).stale + 1 }, false) := by
  have hno : ¬ (off = 0 ∧ 4 ≤ width) := fun h => absurd (hn h.1) (Nat.not_lt.2 h.2)
  simp only [State.blockWrite, Bool.and_eq_true, decide_eq_true_eq]
  rw [if_neg hno, if_pos ⟨ho, hw⟩]

/-- The rest of the block ignores writes (Table QD-4, R113). -/
theorem State.blockWrite_beyond_tail (ho : 4 ≤ off) : s.blockWrite q off width v = (s, false) := by
  have h0 : off ≠ 0 := by omega
  simp [State.blockWrite, h0, Nat.not_lt.2 ho]

/-- Through the BAR2 page, a write that the block serves does what it does there (R341). -/
theorem State.queuePageWrite_served (h : s.blockWrite q off width v = (t, false)) :
    s.queuePageWrite q off width v = t := by
  simp [State.queuePageWrite, h]

/-- One that the block denies has the error response 0x0802 of a request (R252). -/
theorem State.queuePageWrite_denied (h : s.blockWrite q off width v = (t, true)) :
    s.queuePageWrite q off width v =
      t.denied { unitRq 10 (s.qWho q) true with addr := blockAddr q + off, len := width } (0x0802, noWindow) := by
  simp [State.queuePageWrite, h]

end Block

/-- A doorbell command is a write through the page where the host reaches the SX4, and nothing elsewhere. -/
theorem exec_doorbell (s : State) (q : QueueId) (off : Fin 64) (width : Fin 9) (v : W64) :
    exec (.doorbell q off width v) s = .next (if s.hostReaches then s.queuePageWrite q off width v else s) := rfl

/-! ### The obligation -/

/-- Settles O14: by the bytes the write touches, then by the distance of its value from `TAIL`. -/
theorem doorbells : Obligations.Doorbells := by
  unfold Obligations.Doorbells
  intro s q off width v k n
  rw [exec_doorbell]
  refine ⟨fun hr => by rw [hr]; rfl, fun hr => ?_⟩
  rw [if_pos hr]
  refine ⟨fun ho hw hd => ?value, fun ho hw hd => ?denied, fun ho hw hn => ?narrow, fun ho => ?elsewhere⟩
  case value =>
    rw [State.queuePageWrite_served (State.blockWrite_value (congrArg Fin.val ho) hw hd)]
    refine ⟨fun h1 hc hn => ?pushes, fun h0 => ?same, fun hn => ?behind, fun hc hn => ?beyond⟩
    case pushes =>
      have arrives : k.tail + BitVec.ofNat 32 n = v.setWidth 32 := by
        rw [BitVec.ofNat_toNat, BitVec.setWidth_eq, add_sub_cancel]
      have push : s.doorbellValue q (v.setWidth 32) = s.pushed q n := State.doorbellValue_within_credits h1 hc hn
      rw [push]
      refine ⟨_, rfl, State.pushed_frame .., ?_, ?_, ?_, fun x hx => State.pushed_queue_other s _ hx⟩
      · rw [State.pushed_queue_same, ← arrives]
      · rw [State.pushed_queue_same, ← arrives]
      · rw [State.pushed_queue_same]
    case same => rw [State.doorbellValue_at_tail h0]
    case behind => rw [State.doorbellValue_stale hn]
    case beyond =>
      rw [State.doorbellValue_beyond_credits hc hn]
      exact ⟨_, rfl, State.overflow_queue_same .., State.overflow_mem .., State.overflow_count ..⟩
  case denied =>
    rw [State.queuePageWrite_denied (State.blockWrite_denies (congrArg Fin.val ho) hw hd)]
    exact ⟨_, rfl, State.denied_queues .., State.denied_lastError ..⟩
  case narrow => rw [State.queuePageWrite_served (State.blockWrite_narrow ho hw hn)]
  case elsewhere => rw [State.queuePageWrite_served (State.blockWrite_beyond_tail ho)]

end Sys2Proof.Machine

/-! SUPPORT AND PROOFS. Reads of the units: what lies open to a unit is read as it lies in memory (R223, R229 to R231,
R242). -/

namespace Sys2Proof.Machine

/-! ### What an access leaves -/

/-- What a unit reads in state t is what it reads in state s: memory, the places that requests reach, the stream table,
and what says whose scores are committed. -/
structure ReadsAlike (s t : State) : Prop where
  mem : t.mem = s.mem
  resolve : t.resolve = s.resolve
  entryOff : t.entryOff = s.entryOff
  entry : t.entry = s.entry
  qPart : t.qPart = s.qPart
  qWho : t.qWho = s.qWho
  chip : t.chip = s.chip
  epoch : t.epoch = s.epoch
  committedNow : t.committedNow = s.committedNow

theorem ReadsAlike.opens {s t : State} (h : ReadsAlike s t) {m : Nat} {who : BitVec 8} {wr : Bool} {addr len : Nat}
    (ho : s.opens m who wr addr len) : t.opens m who wr addr len := by
  rw [State.opens, h.resolve]
  exact ho

/-- Accesses have taken s to t: time has passed, ports and cache have moved, and the words in error are the same. -/
def Accessed (s t : State) : Prop := ∃ c x, x.ecc = s.matrix.ecc ∧ t = { s with cycle := c, matrix := x }

namespace Accessed

theorem of_eq {s t : State} (he : t.matrix.ecc = s.matrix.ecc)
    (h : t = { s with cycle := t.cycle, matrix := t.matrix }) : Accessed s t := ⟨_, _, he, h⟩

theorem refl (s : State) : Accessed s s := of_eq rfl rfl

theorem trans {s t u : State} (h : Accessed s t) (h' : Accessed t u) : Accessed s u := by
  obtain ⟨c, x, hx, rfl⟩ := h
  obtain ⟨c', y, hy, rfl⟩ := h'
  exact ⟨c', y, hy.trans hx, rfl⟩

theorem ecc {s t : State} (h : Accessed s t) : t.matrix.ecc = s.matrix.ecc := by
  obtain ⟨c, x, hx, rfl⟩ := h
  exact hx

theorem readsAlike {s t : State} (h : Accessed s t) : ReadsAlike s t := by
  obtain ⟨c, x, -, rfl⟩ := h
  constructor <;> rfl

end Accessed

/-! ### Ports and cache -/

theorem State.unitBurst_accessed (s : State) (r : Rq) (l : List (Nat × Nat)) : Accessed s (s.unitBurst r l) := by
  induction l generalizing s with
  | nil => exact .refl s
  | cons e l ih =>
    refine .trans ?_ (ih _)
    split_ifs
    · exact .refl s
    · exact .of_eq rfl rfl

/-- With no word in error there is none to clear. -/
theorem State.eccClear_clean {s : State} (h : s.matrix.ecc = []) (k len : Nat) : s.eccClear k len = s := if_pos h

theorem State.cacheTouch_accessed {s : State} (h : s.matrix.ecc = []) (p line : Nat) (wr : Bool) :
    Accessed s (s.cacheTouch p line wr) := by
  unfold State.cacheTouch
  dsimp only
  split
  case h_1 => exact .of_eq rfl rfl
  case h_2 =>
    rw [State.eccClear_clean (s := s.cacheUse _ _) h]
    exact .of_eq rfl rfl

theorem State.touchKey_accessed {s : State} (h : s.matrix.ecc = []) (p k : Nat) (wr : Bool) :
    Accessed s (s.touchKey p k wr) := by
  have first := State.cacheTouch_accessed h p (k / 128) wr
  unfold State.touchKey
  split_ifs
  · dsimp only
    split
    · exact first.trans (State.cacheTouch_accessed (first.ecc.trans h) ..)
    · exact first
  · exact .refl s

/-- With no word in error every check passes (R223). -/
theorem State.eccCheck_clean {s : State} (h : s.matrix.ecc = []) (who : BitVec 8) (k len : Nat) :
    s.eccCheck who k len = (s, true) := by
  simp [State.eccCheck, State.eccRead, h]

/-! ### Bytes of memory -/

theorem State.rdBytes_congr {s t : State} (h : t.mem = s.mem) (k n : Nat) : t.rdBytes k n = s.rdBytes k n := by
  induction n generalizing k with
  | zero => rfl
  | succ n ih => simp only [State.rdBytes, State.rd8, ih, h]

theorem State.rdBytes_add (s : State) (k m n : Nat) :
    s.rdBytes k (m + n) = s.rdBytes k m ++ s.rdBytes (k + m) n := by
  induction m generalizing k with
  | zero => simp [State.rdBytes]
  | succ m ih =>
    rw [Nat.add_right_comm, State.rdBytes, ih, Nat.add_assoc, Nat.add_comm 1 m]
    rfl

/-! ### The place of a piece, and its bytes -/

theorem State.fetchKey_clean {s : State} (h : s.matrix.ecc = []) (r : Rq) (k : Nat) :
    ∃ t, Accessed s t ∧ s.fetchKey r k = (t, .ok (s.rdBytes k r.len)) := by
  have touch := State.touchKey_accessed h r.part k false
  refine ⟨_, touch, ?_⟩
  simp [State.fetchKey, State.eccCheck_clean (touch.ecc.trans h), State.rdBytes_congr touch.readsAlike.mem]

/-- Outside the State Store no slot header is read on the way. -/
theorem State.place_outside_store {s : State} {r : Rq} {k : Nat} (h : s.resolve r = .ok (.mem k))
    (h1 : regionOf r.addr ≠ 1) : s.place r = (s, .ok (.mem k)) := by
  have hk : s.headerKey r = none := if_neg fun hh => h1 hh.1
  simp [State.place, h, hk]

/-- Region and offset of an address are its low 53 bits (Table TD-3). -/
theorem memKey_bits (a : Nat) : memKey (bits a 52 48) (bits a 47 0) = a % 2 ^ 53 := by
  simp only [memKey, bits, Nat.shiftRight_eq_div_pow]
  omega

theorem ownPort_lt {m region : Nat} (h : ownPort m region = true) : region < 24 := by
  simp only [ownPort, Bool.and_eq_true, Bool.or_eq_true, decide_eq_true_eq] at h
  omega

theorem beyondRegion_lt {region off : Nat} (h : ¬ beyondRegion region off = true) : region < 24 := by
  by_contra hr
  have h0 : region ≠ 0 := by omega
  have h1 : region ≠ 1 := by omega
  have h3 : region ≠ 3 := by omega
  exact h (by simp [beyondRegion, h0, h1, h3]; omega)

/-- A check that turns requests away has let through one that is served. -/
theorem passed_of_ok {ε α : Type} {c : Prop} [Decidable c] {e : ε} {x : Except ε α} {v : α}
    (h : (if c then .error e else x) = .ok v) : ¬ c ∧ x = .ok v := by
  by_cases hc : c
  · rw [if_pos hc] at h; cases h
  · rw [if_neg hc] at h; exact ⟨hc, h⟩

/-- Outside the State Store a request that reaches memory reaches the byte that the low bits of its address name, in one
of the regions that hold something. -/
theorem State.resolve_key {s : State} {r : Rq} {k : Nat} (h : s.resolve r = .ok (.mem k)) (h1 : regionOf r.addr ≠ 1) :
    k = r.addr % 2 ^ 53 ∧ regionOf r.addr < 24 := by
  rw [← memKey_bits]
  unfold State.resolve at h
  extract_lets chip region off at h
  change k = memKey region off ∧ region < 24
  have h1 : region ≠ 1 := h1
  clear_value region off
  obtain ⟨-, h⟩ := passed_of_ok h
  by_cases hfar : (!r.addr.testBit 60 && chip ≠ s.chip) = true
  · rw [if_pos hfar] at h
    split at h <;> cases h
  rw [if_neg hfar] at h
  by_cases hown : (ownPort r.master region && off < regionSize region) = true
  · rw [if_pos hown] at h
    rw [Bool.and_eq_true] at hown
    split at h <;> cases h
    exact ⟨rfl, ownPort_lt hown.1⟩
  rw [if_neg hown] at h
  obtain ⟨hbeyond, h⟩ := passed_of_ok h
  refine ⟨?_, beyondRegion_lt hbeyond⟩
  cases hw : s.deciding region off with
  | none => rw [hw] at h; cases h
  | some w =>
    rw [hw] at h
    obtain ⟨-, h⟩ := passed_of_ok h
    obtain ⟨-, h⟩ := passed_of_ok h
    by_cases h3 : region = 3
    · rw [if_pos h3] at h
      split at h <;> cases h
    rw [if_neg h3] at h
    by_cases h0 : region = 0
    · rw [if_pos h0] at h
      obtain ⟨-, h⟩ := passed_of_ok h
      obtain ⟨-, h⟩ := passed_of_ok h
      obtain ⟨-, h⟩ := passed_of_ok h
      obtain ⟨-, h⟩ := passed_of_ok h
      cases h
      rw [h0]
    · rw [if_neg h0, if_neg h1] at h
      split at h <;> cases h
      rfl

/-! ### A span that lies open, piece by piece -/

/-- The rest of a span lies open too. -/
theorem State.opens_drop {s : State} {m : Nat} {who : BitVec 8} {wr : Bool} {addr len n : Nat} (hn : n ≤ len)
    (h : s.opens m who wr addr len) : s.opens m who wr (addr + n) (len - n) :=
  fun a j h1 h2 h3 h4 => h a j (by omega) h2 (by omega) h4

/-- Regions that hold nothing are the last ones; a piece that lies open comes before them, and the places of what
follows it come after its own. -/
theorem State.opens_step {s : State} {m : Nat} {who : BitVec 8} {wr : Bool} {addr len n : Nat}
    (h : s.opens m who wr addr len) (h1 : 1 ≤ n) (hl : n ≤ len) (h64 : addr % 64 + n ≤ 64) :
    (addr + n) % 2 ^ 53 = addr % 2 ^ 53 + n := by
  obtain ⟨hr, k, hk⟩ := h addr n le_rfl h1 (by omega) h64
  have hlt : regionOf addr < 24 := (State.resolve_key hk hr).2
  simp only [regionOf, bits, Nat.shiftRight_eq_div_pow] at hlt
  omega

theorem State.readPiece_open {s : State} {m : Nat} {who : BitVec 8} {addr len n : Nat} (hecc : s.matrix.ecc = [])
    (h : s.opens m who false addr len) (h1 : 1 ≤ n) (hl : n ≤ len) (h64 : addr % 64 + n ≤ 64) :
    ∃ t, Accessed s t ∧
      s.readPiece { unitRq m who false with addr, len := n } = (t, .ok (s.rdBytes (addr % 2 ^ 53) n)) := by
  obtain ⟨hr, k, hk⟩ := h addr n le_rfl h1 (by omega) h64
  obtain ⟨t, ht, e⟩ := State.fetchKey_clean hecc { unitRq m who false with addr, len := n } k
  obtain ⟨rfl, -⟩ := State.resolve_key hk hr
  refine ⟨t, ht, ?_⟩
  rw [State.readPiece, State.place_outside_store hk hr]
  exact e

/-- A piece is not empty, goes to the end of its line at most, and ends there or with the span. -/
theorem pieceLen_spec {addr len : Nat} (hl : len ≠ 0) : 1 ≤ pieceLen addr len ∧ pieceLen addr len ≤ len ∧
    addr % 64 + pieceLen addr len ≤ 64 ∧ (pieceLen addr len = len ∨ (addr + pieceLen addr len) % 64 = 0) := by
  unfold pieceLen
  omega

/-- All pieces of a span that lies open are read, and give its bytes in order. -/
theorem State.readPieces_open {s : State} {m : Nat} {who : BitVec 8} (hecc : s.matrix.ecc = []) (acc : List Byte)
    (fuel : Nat) {addr len : Nat} (h : s.opens m who false addr len) (hf : len ≠ 0 → addr % 64 + len ≤ 64 * fuel) :
    ∃ t, Accessed s t ∧
      s.readPieces (unitRq m who false) acc fuel addr len = (t, .ok (acc ++ s.rdBytes (addr % 2 ^ 53) len)) := by
  induction fuel generalizing s acc addr len with
  | zero =>
    obtain rfl : len = 0 := by omega
    exact ⟨s, .refl s, by simp [State.readPieces, State.rdBytes]⟩
  | succ fuel ih =>
    by_cases hl : len = 0
    · subst hl
      exact ⟨s, .refl s, by simp [State.readPieces, State.rdBytes]⟩
    obtain ⟨h1, hle, h64, hend⟩ := pieceLen_spec (addr := addr) hl
    rw [State.readPieces, if_neg hl]
    generalize pieceLen addr len = n at *
    have hrest : len - n ≠ 0 → (addr + n) % 64 + (len - n) ≤ 64 * fuel := by omega
    obtain ⟨t, ht, e⟩ := State.readPiece_open hecc h h1 hle h64
    obtain ⟨u, hu, e'⟩ := ih (ht.ecc.trans hecc) (acc ++ s.rdBytes (addr % 2 ^ 53) n)
      (ht.readsAlike.opens (State.opens_drop hle h)) hrest
    refine ⟨u, ht.trans hu, ?_⟩
    have whole : s.rdBytes (addr % 2 ^ 53) len =
        s.rdBytes (addr % 2 ^ 53) n ++ t.rdBytes ((addr + n) % 2 ^ 53) (len - n) := by
      rw [State.opens_step h h1 hle h64, State.rdBytes_congr ht.readsAlike.mem, ← State.rdBytes_add,
        Nat.add_sub_cancel' hle]
    rw [whole, ← List.append_assoc, ← e']
    dsimp only at e ⊢
    rw [e]

/-- A unit reads a span that lies open, with no word in error: its bytes, and nothing but the ports and the cache
moves. -/
theorem State.mread_open {s : State} {m : Nat} {who : BitVec 8} {addr len : Nat} (hecc : s.matrix.ecc = [])
    (h : s.opens m who false addr len) :
    ∃ t, Accessed s t ∧ s.mread m who addr len = (t, .ok (s.rdBytes (addr % 2 ^ 53) len)) := by
  have burst : Accessed s (s.unitTransfer (unitRq m who false) addr len) := State.unitBurst_accessed ..
  obtain ⟨t, ht, e⟩ := State.readPieces_open (burst.ecc.trans hecc) [] (len / 64 + 2) (burst.readsAlike.opens h)
    (fun _ => by omega)
  refine ⟨t, burst.trans ht, ?_⟩
  rw [State.mread, e, State.rdBytes_congr burst.readsAlike.mem, List.nil_append]

end Sys2Proof.Machine

/-! SUPPORT AND PROOFS. Host rings and publishing (R352 to R356): the service of an accepted descriptor, the ring
registers, records and the host ring. -/

namespace Sys2Proof.Machine

/-! ### The run of a queue's descriptor -/

@[simp] theorem State.mapRun_queue_same (s : State) (q : Nat) (f : Run → Run) :
    (s.mapRun q f).queue q = { s.queue q with run := (s.queue q).run.map f } := State.queue_setQueue_same ..

/-- A run that finishes ends with what it is given. -/
theorem State.finish_endsWith {s : State} {q : Nat} {r : Run} (h : (s.queue q).run = some r)
    (status code detail : Nat) : EndsWith (s.finish q status code detail) q status code detail := by
  simp [EndsWith, State.finish, h]

/-- The indices of a dispatched descriptor stay while its run keeps its place. -/
theorem Dispatched.mapRun {s t : State} {q : Nat} {d : Desc} (h : Dispatched s t q d) {f : Run → Run}
    (hi : ∀ r, (f r).index = r.index) (ht : ∀ r, (f r).two = r.two) : Dispatched s (t.mapRun q f) q d := by
  obtain ⟨hd, htail, hh, r, hr, hri, hrt⟩ := h
  simp [Dispatched, hd, htail, hh, hr, hi, ht, hri, hrt]

theorem Dispatched.congr {s t u : State} {q : Nat} {d : Desc} (h : Dispatched s t q d) (e : u.queue q = t.queue q) :
    Dispatched s u q d := by
  rw [Dispatched, e]
  exact h

theorem State.startRun_dispatched (s : State) (q : Nat) (d : Desc) : Dispatched s (s.startRun q d) q d := by
  simp [Dispatched, State.startRun, State.queue, State.setQueue]

/-! ### A descriptor that is accepted is served -/

/-- A queue whose front descriptor may be dispatched runs none (R114). -/
theorem State.front_idle {s : State} {q : QueueId} {d : Desc} (h : s.front q = some d) : (s.queue q).run = none := by
  have hready : s.ready q = true := by
    unfold State.front at h
    split at h
    case isTrue hh => exact (Bool.and_eq_true_iff.1 hh).1
    case isFalse => cases h
  have same : s.sameUnit q q = true := by simp [State.sameUnit]
  simp only [State.ready, Bool.and_eq_true, List.all_eq_true, List.mem_range] at hready
  obtain ⟨⟨⟨⟨⟨-, units⟩, -⟩, -⟩, -⟩, -⟩ := hready
  simpa [same] using units q.val q.isLt

/-- A scrub turns reads and writes of a ring away alike (R288). -/
theorem State.ringDenied_eq_none {s : State} {q key len : Nat} {wr : Bool} :
    s.ringDenied q key len wr = none ↔ (s.scrubbing key || s.scrubbing (key + len - 1)) = false := by
  simp [State.ringDenied]

/-- A descriptor that passes the checks of R122 has its work done. -/
theorem State.serve_accepted {s : State} {q : QueueId} {d : Desc} {mine : Desc → Bool} {ranges : State → Desc → Bad}
    {work : State → Desc → State} (h : Accepted s q d (ranges (s.startRun q d) d)) (hm : mine d = true) :
    s.serve q mine ranges work = (s.startRun q d).withAnswers q d [] work := by
  obtain ⟨hf, hring, hcheck⟩ := h
  have idle : s.answeredRun q = none := by simp [State.answeredRun, State.front_idle hf]
  have free : s.ringDenied q (s.entryKey q d.index.toNat) 64 false = none := by
    have hring := hring 0 Nat.one_pos
    rw [State.ringDenied_eq_none] at hring ⊢
    simpa using hring
  simp [State.serve, idle, hf, hm, free, hcheck]

/-- The work of queue q's descriptor has asked no other device, and has made no events that are still to come. -/
def Quiet (t : State) (q : Nat) : Prop :=
  (t.asking.bind fun a => a.want) = none ∧ ∃ r, (t.queue q).run = some r ∧ r.marks = []

/-- The state after work that lacks no answer. -/
def State.unasking (t : State) : State := { t with asking := none }

/-- Events that are not there are not made. -/
theorem State.emitMarks_none {t : State} {q : Nat} {r : Run} (hr : (t.queue q).run = some r) (hm : r.marks = []) :
    t.emitMarks q = t := by
  simp [State.emitMarks, hr, hm]

/-- Work that asks no other device is done at once (R256). -/
theorem State.withAnswers_quiet {u : State} {q : QueueId} {d : Desc} {work : State → Desc → State}
    (h : Quiet (work (u.working q) d) q) :
    u.withAnswers q d [] work = (work (u.working q) d).unasking := by
  have e : (⟨q.val % 32, Nat.mod_lt _ (by decide)⟩ : QueueId) = q := Fin.ext (Nat.mod_eq_of_lt q.isLt)
  obtain ⟨hask, r, hr, hm⟩ := h
  unfold State.withAnswers
  extract_lets t
  have ht : t = work (u.working q) d := by rw [State.working, ← e]
  clear_value t
  subst ht
  split
  case h_1 => exact State.emitMarks_none hr hm
  case h_2 hw => rw [hask] at hw; cases hw

/-! ### Host ring registers -/

@[simp] theorem State.setRing_ring_same (s : State) (q : Nat) (k : HostRing) : (s.setRing q k).ring q = k :=
  tget_tset_same ..

@[simp] theorem State.setRing_ring_other (s : State) {q x : Nat} (k : HostRing) (h : x ≠ q) :
    (s.setRing q k).ring x = s.ring x :=
  tget_tset_other _ _ _ _ _ _ h

theorem exec_ridxWrite (s : State) (q : QueueId) (t : W32) :
    exec (.ridxWrite q t) s = .next (if s.hostReaches then s.ridxWrite q t else s) := rfl

theorem exec_hostRingConfig (s : State) (q : QueueId) (r : HostRingReg) (v : W64) :
    exec (.hostRingConfig q r v) s = .next (if s.hostReaches then s.ringConfig q r v else s) := rfl

section Registers

variable {s : State} {q : Nat} {t : W32}

/-- A write of `RIDX`'s own value has no effect (R355). -/
theorem State.ridxWrite_same (s : State) (q : Nat) : s.ridxWrite q (s.ring q).ridx = s := by
  simp [State.ridxWrite]

theorem State.ridxWrite_other (hc : s.qCons q = 7) (hne : t ≠ (s.ring q).ridx) : s.ridxWrite q t =
    if (t - (s.ring q).ridx).toNat ≤ ((s.ring q).widx - (s.ring q).ridx).toNat then
      s.setRing q { s.ring q with ridx := t }
    else s.setRing q { s.ring q with rstale := (s.ring q).rstale + 1 } := by
  have hn : t - (s.ring q).ridx ≠ 0 := sub_ne_zero.2 hne
  exact if_neg (by rw [hc, Bool.or_eq_true, decide_eq_true_eq, decide_eq_true_eq]; exact fun h => h.elim (· rfl) hn)

theorem State.ridxWrite_moves (hc : s.qCons q = 7) (hne : t ≠ (s.ring q).ridx)
    (h : (t - (s.ring q).ridx).toNat ≤ ((s.ring q).widx - (s.ring q).ridx).toNat) :
    s.ridxWrite q t = s.setRing q { s.ring q with ridx := t } := by
  rw [State.ridxWrite_other hc hne, if_pos h]

theorem State.ridxWrite_stale (hc : s.qCons q = 7)
    (h : ((s.ring q).widx - (s.ring q).ridx).toNat < (t - (s.ring q).ridx).toNat) :
    s.ridxWrite q t = s.setRing q { s.ring q with rstale := (s.ring q).rstale + 1 } := by
  have hne : t ≠ (s.ring q).ridx := by
    rintro rfl
    simp at h
  rw [State.ridxWrite_other hc hne, if_neg (Nat.not_le.2 h)]

/-- A write of `HRBASE` or `HRSIZE` is dropped while the queue holds an unended descriptor. -/
theorem State.ringConfig_dropped (h : (s.queue q).tail ≠ (s.queue q).head) (r : HostRingReg) (v : W64) :
    s.ringConfig q r v = s := by
  simp [State.ringConfig, h]

theorem State.ringConfig_base (hc : s.qCons q = 7) (h : (s.queue q).tail = (s.queue q).head) (v : W64) :
    s.ringConfig q .base v = s.setRing q { s.ring q with base := v, widx := 0, ridx := 0 } := by
  simp [State.ringConfig, hc, h]

theorem State.ringConfig_size (hc : s.qCons q = 7) (h : (s.queue q).tail = (s.queue q).head) (v : W64) :
    s.ringConfig q .size v = s.setRing q { s.ring q with size := v, widx := 0, ridx := 0 } := by
  simp [State.ringConfig, hc, h]

end Registers

/-! ### What a publish descriptor leaves alone until its records go out -/

/-- Memory, the host ring of queue q, what went to host memory, the link and D48 are in t as in s. -/
structure HostKept (s t : State) (q : Nat) : Prop where
  mem : t.mem = s.mem
  ring : t.ring q = s.ring q
  writes : t.outputs.hostWrites = s.outputs.hostWrites
  link : t.host.linkUp = s.host.linkUp
  on : t.isOn 48 = s.isOn 48

theorem HostKept.trans {s t u : State} {q : Nat} (h : HostKept s t q) (h' : HostKept t u q) : HostKept s u q :=
  ⟨h'.mem.trans h.mem, h'.ring.trans h.ring, h'.writes.trans h.writes, h'.link.trans h.link, h'.on.trans h.on⟩

theorem State.mapRun_hostKept (s : State) (q x : Nat) (f : Run → Run) : HostKept s (s.mapRun q f) x :=
  ⟨rfl, rfl, rfl, rfl, rfl⟩

theorem Accessed.hostKept {s t : State} (h : Accessed s t) (q : Nat) : HostKept s t q := by
  obtain ⟨c, x, -, rfl⟩ := h
  exact ⟨rfl, rfl, rfl, rfl, rfl⟩

theorem State.emit_hostKept (s : State) (src : Nat) (spec : Bool) (who : BitVec 8) (ev p0 : Nat) (more : List Nat)
    (q : Nat) : HostKept s (s.emit src spec who ev p0 more) q := by
  have power : (s.emit src spec who ev p0 more).power = s.power := State.emit_power ..
  obtain ⟨o, f, p, h, u, tr, e⟩ := State.emit_frame s src spec who ev p0 more
  rw [e] at power ⊢
  refine ⟨rfl, rfl, rfl, rfl, ?_⟩
  exact congrArg (fun p : Power => decide (tget p.domains 48 DomainState.on = .on)) power

/-- Dispatch tells of itself in trace, and touches nothing that records go to. -/
theorem State.startRun_hostKept (s : State) (q x : Nat) (d : Desc) : HostKept s (s.startRun q d) x := by
  unfold State.startRun
  refine .trans ?_ (State.emit_hostKept ..)
  exact ⟨rfl, rfl, rfl, rfl, rfl⟩

theorem State.dispatch_hostKept (s : State) (q : QueueId) (x : Nat) (d : Desc) :
    HostKept s ((s.startRun q d).working q) x :=
  (s.startRun_hostKept q x d).trans ⟨rfl, rfl, rfl, rfl, rfl⟩

/-! ### Work that asks nothing and has no events to come -/

theorem Quiet.mapRun {s : State} {q : Nat} (h : Quiet s q) {f : Run → Run} (hf : ∀ r, (f r).marks = r.marks) :
    Quiet (s.mapRun q f) q := by
  obtain ⟨ha, r, hr, hm⟩ := h
  exact ⟨ha, f r, by simp [hr], (hf r).trans hm⟩

theorem Quiet.finish {s : State} {q : Nat} (h : Quiet s q) (status code detail : Nat) :
    Quiet (s.finish q status code detail) q := h.mapRun fun _ => rfl

theorem Quiet.congr {s t : State} {q : Nat} (h : Quiet s q) (ha : t.asking = s.asking) (hq : t.queues = s.queues) :
    Quiet t q := by
  have e : t.queue q = s.queue q := congrArg (fun m => tget m q ({} : Queue)) hq
  rw [Quiet, ha, e]
  exact h

theorem Dispatched.finish {s t : State} {q : Nat} {d : Desc} (h : Dispatched s t q d) (status code detail : Nat) :
    Dispatched s (t.finish q status code detail) q d := h.mapRun (fun _ => rfl) (fun _ => rfl)

/-- A run with these records to write. -/
def Run.holding (ls : List (List Byte)) (r : Run) : Run := { r with records := ls }

/-- A run that waits, with the code that it will end with. -/
def Run.awaiting (code : Nat) (r : Run) : Run :=
  { r with phase := .waiting, ending := { r.ending with code := BitVec.ofNat 16 code } }

theorem Quiet.holding {s : State} {q : Nat} (h : Quiet s q) (ls : List (List Byte)) :
    Quiet (s.mapRun q (Run.holding ls)) q := h.mapRun fun _ => rfl

theorem Dispatched.holding {s t : State} {q : Nat} {d : Desc} (h : Dispatched s t q d) (ls : List (List Byte)) :
    Dispatched s (t.mapRun q (Run.holding ls)) q d := h.mapRun (fun _ => rfl) (fun _ => rfl)

theorem State.run_mapRun {s : State} {q : Nat} {r : Run} (h : (s.queue q).run = some r) (f : Run → Run) :
    ((s.mapRun q f).queue q).run = some (f r) := by
  simp [h]

/-! ### A record goes to the host ring (R354) -/

/-- The address in host memory at which a record of n bytes goes: `WIDX` past its padding, modulo the ring's size. -/
def HostRing.place (k : HostRing) (n : Nat) : W64 :=
  k.base + BitVec.ofNat 64 ((k.widx + BitVec.ofNat 32 (k.pad n)).toNat % k.size.toNat)

/-- The ring with `WIDX` past a record of n bytes and its padding. -/
def HostRing.past (k : HostRing) (n : Nat) : HostRing :=
  { k with widx := k.widx + BitVec.ofNat 32 (k.pad n) + BitVec.ofNat 32 n }

/-- Before the record goes padding, if any; then `WIDX` moves, and an event tells it. -/
theorem State.ringWrite_eq (s : State) (q : Nat) (l : List Byte) : ∃ w : List HostWrite,
    s.ringWrite q l = ((({ s with outputs := { s.outputs with hostWrites := w } } : State).hostWrite
      ((s.ring q).place l.length) l).setRing q ((s.ring q).past l.length)).emit 17 false (s.qWho q) 0x61
      (field l 0 4 % 2 ^ 25 + field l 10 1 * 2 ^ 32) := by
  unfold State.ringWrite
  dsimp only
  split
  · exact ⟨s.outputs.hostWrites, rfl⟩
  · exact ⟨_, rfl⟩

section Written

variable (s : State) (q : Nat) (l : List Byte)

@[simp] theorem State.ringWrite_queues : (s.ringWrite q l).queues = s.queues := by
  obtain ⟨w, e⟩ := s.ringWrite_eq q l
  rw [e, State.emit_queues]
  rfl

@[simp] theorem State.ringWrite_queue (x : Nat) : (s.ringWrite q l).queue x = s.queue x :=
  congrArg (fun m => tget m x ({} : Queue)) (s.ringWrite_queues q l)

@[simp] theorem State.ringWrite_asking : (s.ringWrite q l).asking = s.asking := by
  obtain ⟨w, e⟩ := s.ringWrite_eq q l
  rw [e, State.emit_asking]
  rfl

/-- The record l lies in queue q's host ring at its place behind its padding, `WIDX` is past both, and memory is as it
was (R354). -/
def RecordWritten (s t : State) (q : Nat) (l : List Byte) : Prop :=
  t.ring q = (s.ring q).past l.length ∧
    t.outputs.hostWrites.getLast? = some { addr := (s.ring q).place l.length, data := l } ∧ t.mem = s.mem

theorem State.ringWrite_written : RecordWritten s (s.ringWrite q l) q l := by
  obtain ⟨w, e⟩ := s.ringWrite_eq q l
  rw [e]
  have told := State.emit_hostKept ((({ s with outputs := { s.outputs with hostWrites := w } } : State).hostWrite
    ((s.ring q).place l.length) l).setRing q ((s.ring q).past l.length)) 17 false (s.qWho q) 0x61
    (field l 0 4 % 2 ^ 25 + field l 10 1 * 2 ^ 32) [] q
  refine ⟨?_, ?_, told.mem⟩
  · rw [told.ring, State.setRing_ring_same]
  · rw [told.writes]
    exact List.getLast?_concat ..

end Written

theorem RecordWritten.then_kept {s t u : State} {q : Nat} {l : List Byte} (h : RecordWritten s t q l)
    (k : HostKept t u q) : RecordWritten s u q l := by
  rw [RecordWritten, k.ring, k.writes, k.mem]
  exact h

theorem RecordWritten.of_kept {s v t : State} {q : Nat} {l : List Byte} (k : HostKept s v q)
    (h : RecordWritten v t q l) : RecordWritten s t q l := by
  rw [RecordWritten, ← k.ring, ← k.mem]
  exact h

/-! ### Records that wait: one round of `flushRecords` by what the ring and the link allow (R354, R356) -/

theorem State.hostDenies_up {s : State} (hon : s.isOn 48 = true) (hup : s.host.linkUp = true) (q : Nat) (wr : Bool)
    (a : Nat) : s.hostDenies q wr a = (s, none) := by
  simp [State.hostDenies, hon, hup]

theorem State.hostDenies_down {s : State} (hon : s.isOn 48 = true) (hdown : s.host.linkUp = false) (q : Nat) (wr : Bool)
    (a : Nat) : s.hostDenies q wr a = (s, some 0x0D01) := by
  simp [State.hostDenies, hon, hdown]

section Flush

variable {s : State} {q n : Nat} {r : Run} {l : List Byte} {rest : List (List Byte)}

/-- With no record left the descriptor is over. -/
theorem State.flushRecords_over (hr : (s.queue q).run = some r) (h : r.records = []) (code : Nat) :
    s.flushRecords q code (n + 1) = s.finish q (if code = 0 then 0 else 2) code 0 := by
  simp [State.flushRecords, hr, h]

/-- Without room for the next record it waits. -/
theorem State.flushRecords_waits (hr : (s.queue q).run = some r) (h : r.records = l :: rest)
    (hroom : (s.ring q).room l.length = false) (code : Nat) : s.flushRecords q code (n + 1) =
      s.mapRun q (Run.awaiting code) := by
  simp only [State.flushRecords, hr, h, hroom, Bool.not_false, if_true]
  rfl

/-- With the link down it stops, and its records are gone. -/
theorem State.flushRecords_stops (hr : (s.queue q).run = some r) (h : r.records = l :: rest)
    (hroom : (s.ring q).room l.length = true) (hon : s.isOn 48 = true) (hdown : s.host.linkUp = false) (code : Nat) :
    s.flushRecords q code (n + 1) = (s.mapRun q (Run.holding [])).finishFault q 0x0D01 0 := by
  simp only [State.flushRecords, hr, h, hroom, Bool.not_true, Bool.false_eq_true, if_false,
    State.hostDenies_down hon hdown]
  rfl

/-- With room and the link up the next record is written. -/
theorem State.flushRecords_writes (hr : (s.queue q).run = some r) (h : r.records = l :: rest)
    (hroom : (s.ring q).room l.length = true) (hon : s.isOn 48 = true) (hup : s.host.linkUp = true) (code : Nat) :
    s.flushRecords q code (n + 1) =
      ((s.ringWrite q l).mapRun q (Run.holding rest)).flushRecords q code n := by
  simp only [State.flushRecords, hr, h, hroom, Bool.not_true, Bool.false_eq_true, if_false,
    State.hostDenies_up hon hup]
  rfl

/-- So the last record of a descriptor whose reads met no error is written, and the descriptor ends well. -/
theorem State.flushRecords_last (hr : (s.queue q).run = some r) (h : r.records = [l])
    (hroom : (s.ring q).room l.length = true) (hon : s.isOn 48 = true) (hup : s.host.linkUp = true) :
    s.flushRecords q 0 2 = ((s.ringWrite q l).mapRun q (Run.holding [])).finish q 0 0 0 := by
  have hr' : ((s.ringWrite q l).queue q).run = some r := by rw [State.ringWrite_queue, hr]
  have left := State.run_mapRun hr' (Run.holding [])
  rw [State.flushRecords_writes hr h hroom hon hup, State.flushRecords_over left rfl, if_pos rfl]

/-- It lies in the host ring then. -/
theorem State.flushRecords_last_written (hr : (s.queue q).run = some r) (h : r.records = [l])
    (hroom : (s.ring q).room l.length = true) (hon : s.isOn 48 = true) (hup : s.host.linkUp = true) :
    EndsWith (s.flushRecords q 0 2) q 0 0 0 ∧ RecordWritten s (s.flushRecords q 0 2) q l := by
  rw [State.flushRecords_last hr h hroom hon hup]
  have hr' : ((s.ringWrite q l).queue q).run = some r := by rw [State.ringWrite_queue, hr]
  have kept : HostKept (s.ringWrite q l) (((s.ringWrite q l).mapRun q (Run.holding [])).finish q 0 0 0) q :=
    (State.mapRun_hostKept ..).trans (State.mapRun_hostKept ..)
  exact ⟨State.finish_endsWith (State.run_mapRun hr' _) .., (s.ringWrite_written q l).then_kept kept⟩

end Flush

/-! ### A row's record (R352, R353) -/

/-- The bytes at a stream table entry's address are the entry (Table SS-1). -/
theorem State.entry_at_address {s : State} {i : Nat} (h : s.entryOff i + 32 ≤ 2 ^ 48) :
    entryOf (leNat (s.rdBytes (s.entryAddr i % 2 ^ 53) 32)) = s.entry i := by
  have e : s.entryAddr i % 2 ^ 53 = memKey 0 (s.entryOff i) := by
    simp only [State.entryAddr, localAddr, memKey]
    omega
  rw [e]
  rfl

/-- A row whose reads are accepted has the record that Table HP-9 gives it. -/
theorem State.publishRow_open {s : State} {q : Nat} {d : Desc} {r i : Nat} (hecc : s.matrix.ecc = [])
    (h : s.publishOpen q d r i) :
    ∃ t, Accessed s t ∧ s.publishRow q d r i = (t, .ok (s.publishRecord q d r i)) := by
  obtain ⟨hfit, hentry, hscores⟩ := h
  obtain ⟨t, ht, e⟩ := State.mread_open hecc hentry
  have found := State.entry_at_address hfit
  cases hc : s.committedNow (s.qPart q) i (s.entry i)
  case true =>
    obtain ⟨u, hu, e'⟩ := State.mread_open (ht.ecc.trans hecc) (ht.readsAlike.opens (hscores hc))
    rw [State.rdBytes_congr ht.readsAlike.mem] at e'
    refine ⟨u, ht.trans hu, ?_⟩
    simp only [State.publishRow, State.publishRecord, State.pubRead, e, found, ht.readsAlike.committedNow,
      ht.readsAlike.epoch, ht.readsAlike.chip, ht.readsAlike.qWho, hc, e', Bool.not_true,
      Bool.false_eq_true, if_false, if_true]
  case false =>
    refine ⟨t, ht, ?_⟩
    simp only [State.publishRow, State.publishRecord, State.pubRead, e, found, ht.readsAlike.committedNow,
      ht.readsAlike.epoch, ht.readsAlike.chip, hc, Bool.not_false, Bool.false_eq_true, if_false, if_true]

/-! ### The work of a publish descriptor -/

theorem ReadsAlike.publishOpen {s t : State} (h : ReadsAlike s t) {q : Nat} {d : Desc} {r i : Nat}
    (ho : s.publishOpen q d r i) : t.publishOpen q d r i := by
  obtain ⟨hfit, hentry, hscores⟩ := ho
  rw [State.publishOpen, h.qWho, h.qPart, h.entry, h.committedNow, State.entryAddr, h.entryOff]
  exact ⟨hfit, h.opens hentry, fun hc => h.opens (hscores hc)⟩

theorem ReadsAlike.publishRecord {s t : State} (h : ReadsAlike s t) (q : Nat) (d : Desc) (r i : Nat) :
    t.publishRecord q d r i = s.publishRecord q d r i := by
  simp only [State.publishRecord, h.entry, h.qPart, h.chip, h.epoch, h.committedNow, State.rdBytes_congr h.mem]

theorem State.working_ecc (u : State) (q : QueueId) : (u.working q).matrix.ecc = u.matrix.ecc := rfl

theorem State.working_readsAlike (u : State) (q : QueueId) : ReadsAlike u (u.working q) := by
  constructor <;> rfl

/-- The valid rows of a publish descriptor's list, each with its stream's local index. -/
def validRows (d : Desc) (b : List Byte) : List (Nat × Nat) :=
  ((List.range (d.f 21 1)).zip (rowIndices b (d.f 21 1))).filterMap fun e => e.2.map fun i => (e.1, i)

/-- What a `PUBLISH` does once it is dispatched and accepted. -/
def State.publishWork (q : Nat) (t : State) (d : Desc) : State :=
  let l := t.pubRead q (d.f 32 8) (4 * d.f 21 1)
  match l.2 with
  | .error c => l.1.finishFault q c 0
  | .ok b =>
    let rows := validRows d b
    let p := l.1.publishRows q d rows []
    (p.1.mapRun q (Run.holding p.2.1)).flushRecords q (p.2.2.getD 0) (rows.length + 1)

theorem exec_publish (s : State) (q : QueueId) : exec (.publish q) s =
    .next (s.serve q (fun d => d.opc = 0x60) (fun _ d => publishRanges d) (State.publishWork q)) := rfl

/-- An accepted `PUBLISH` whose work asks no other device leaves what its work leaves. -/
theorem exec_publish_accepted {s : State} {q : QueueId} {d : Desc} (h : Accepted s q d (publishRanges d))
    (ho : d.opc = 0x60) (hq : Quiet (((s.startRun q d).working q).publishWork q d) q) :
    exec (.publish q) s = .next (((s.startRun q d).working q).publishWork q d).unasking := by
  have served := State.serve_accepted (mine := fun d => d.opc = 0x60) (ranges := fun _ d => publishRanges d)
    (work := State.publishWork q) h (decide_eq_true ho)
  rw [exec_publish, served, State.withAnswers_quiet hq]

section Work

variable {u : State} {q : Nat} {d : Desc} {rows : List (Nat × Nat)}

/-- Once its list is read, the records of the valid rows follow. -/
theorem State.publishWork_listed (hecc : u.matrix.ecc = []) (hl : u.opens 13 (u.qWho q) false (d.f 32 8) (4 * d.f 21 1))
    (hrows : rows = validRows d (u.rdBytes (d.f 32 8 % 2 ^ 53) (4 * d.f 21 1))) :
    ∃ t, Accessed u t ∧ u.publishWork q d =
      ((t.publishRows q d rows []).1.mapRun q (Run.holding (t.publishRows q d rows []).2.1)).flushRecords q
        ((t.publishRows q d rows []).2.2.getD 0) (rows.length + 1) := by
  obtain ⟨t, ht, e⟩ := State.mread_open hecc hl
  exact ⟨t, ht, by rw [State.publishWork, State.pubRead, e, hrows]⟩

/-- Without a valid row there is no record. -/
theorem State.publishWork_none (hecc : u.matrix.ecc = []) (hl : u.opens 13 (u.qWho q) false (d.f 32 8) (4 * d.f 21 1))
    (hrows : [] = validRows d (u.rdBytes (d.f 32 8 % 2 ^ 53) (4 * d.f 21 1))) :
    ∃ t, Accessed u t ∧ u.publishWork q d = (t.mapRun q (Run.holding [])).flushRecords q 0 1 :=
  State.publishWork_listed hecc hl hrows

/-- One valid row whose reads are accepted has its record. -/
theorem State.publishWork_one {r i : Nat} (hecc : u.matrix.ecc = [])
    (hl : u.opens 13 (u.qWho q) false (d.f 32 8) (4 * d.f 21 1))
    (hrows : [(r, i)] = validRows d (u.rdBytes (d.f 32 8 % 2 ^ 53) (4 * d.f 21 1))) (ho : u.publishOpen q d r i) :
    ∃ t, Accessed u t ∧ u.publishWork q d =
      (t.mapRun q (Run.holding [u.publishRecord q d r i])).flushRecords q 0 2 := by
  obtain ⟨t, ht, e⟩ := State.publishWork_listed hecc hl hrows
  obtain ⟨v, hv, e'⟩ := State.publishRow_open (ht.ecc.trans hecc) (ht.readsAlike.publishOpen ho)
  refine ⟨v, ht.trans hv, ?_⟩
  rw [e, State.publishRows, e', ht.readsAlike.publishRecord]
  rfl

end Work

/-! ### From dispatch to the records -/

/-- Queue q's publish descriptor d, dispatched in state s, has these records to write in state v, and has touched
nothing that they go to. -/
structure HoldsRecords (s v : State) (q : Nat) (d : Desc) (ls : List (List Byte)) : Prop where
  kept : HostKept s v q
  dispatched : Dispatched s v q d
  quiet : Quiet v q
  run : ∃ r, (v.queue q).run = some r ∧ r.records = ls

theorem State.startRun_ecc (s : State) (q : Nat) (d : Desc) : (s.startRun q d).matrix.ecc = s.matrix.ecc := by
  rw [State.startRun, State.emit_matrix]
  rfl

theorem State.working_quiet (s : State) (q : QueueId) (d : Desc) : Quiet ((s.startRun q d).working q) q := by
  have started : ∃ r, ((s.startRun q d).queue q).run = some r ∧ r.marks = [] := by
    simp [State.startRun, State.queue, State.setQueue]
  exact ⟨rfl, started⟩

/-- Reads after the dispatch leave all that the descriptor's records go to. -/
theorem Accessed.holdsRecords {s t : State} {q : QueueId} {d : Desc} (h : Accessed ((s.startRun q d).working q) t)
    (ls : List (List Byte)) : HoldsRecords s (t.mapRun q (Run.holding ls)) q d ls := by
  have kept : HostKept s t q := (s.dispatch_hostKept q q d).trans (h.hostKept q)
  have quiet : Quiet t q := by
    obtain ⟨c, x, -, rfl⟩ := h
    exact s.working_quiet q d
  have dispatched : Dispatched s t q d := by
    obtain ⟨c, x, -, rfl⟩ := h
    exact s.startRun_dispatched q d
  obtain ⟨-, r, hr, -⟩ := id quiet
  exact ⟨kept.trans (State.mapRun_hostKept ..), dispatched.holding ls, quiet.holding ls, _, State.run_mapRun hr _, rfl⟩

section Publish

variable {s : State} {q : QueueId} {d : Desc} (h : Accepted s q d (publishRanges d)) (ho : d.opc = 0x60)

include h ho

/-- Once its records are made, an accepted `PUBLISH` does with them what the ring and the link allow. -/
theorem publish_flushes {ls : List (List Byte)} {n : Nat} (hw : ∃ t, Accessed ((s.startRun q d).working q) t ∧
      ((s.startRun q d).working q).publishWork q d = (t.mapRun q (Run.holding ls)).flushRecords q 0 n) :
    ∃ v, HoldsRecords s v q d ls ∧
      (Quiet (v.flushRecords q 0 n) q → exec (.publish q) s = .next (v.flushRecords q 0 n).unasking) := by
  obtain ⟨t, ht, e⟩ := hw
  refine ⟨_, ht.holdsRecords ls, fun hq => ?_⟩
  rw [← e] at hq ⊢
  exact exec_publish_accepted h ho hq

variable (hecc : s.matrix.ecc = [])
  (hl : (s.startRun q d).opens 13 ((s.startRun q d).qWho q) false (d.f 32 8) (4 * d.f 21 1))

include hecc hl

theorem publish_none (hrows : [] = validRows d (s.rdBytes (d.f 32 8 % 2 ^ 53) (4 * d.f 21 1))) :
    ∃ v, HoldsRecords s v q d [] ∧
      (Quiet (v.flushRecords q 0 1) q → exec (.publish q) s = .next (v.flushRecords q 0 1).unasking) := by
  have alike := (s.startRun q d).working_readsAlike q
  rw [← State.rdBytes_congr (s.dispatch_hostKept q q d).mem] at hrows
  rw [← State.startRun_ecc s q d, ← State.working_ecc _ q] at hecc
  rw [← alike.qWho] at hl
  exact publish_flushes h ho (State.publishWork_none hecc (alike.opens hl) hrows)

theorem publish_one {r i : Nat} (hrows : [(r, i)] = validRows d (s.rdBytes (d.f 32 8 % 2 ^ 53) (4 * d.f 21 1)))
    (hopen : (s.startRun q d).publishOpen q d r i) :
    ∃ v, HoldsRecords s v q d [(s.startRun q d).publishRecord q d r i] ∧
      (Quiet (v.flushRecords q 0 2) q → exec (.publish q) s = .next (v.flushRecords q 0 2).unasking) := by
  have alike := (s.startRun q d).working_readsAlike q
  rw [← State.rdBytes_congr (s.dispatch_hostKept q q d).mem] at hrows
  rw [← State.startRun_ecc s q d, ← State.working_ecc _ q] at hecc
  rw [← alike.qWho] at hl
  rw [← alike.publishRecord]
  exact publish_flushes h ho (State.publishWork_one hecc (alike.opens hl) hrows (alike.publishOpen hopen))

end Publish

/-! ### The outcomes of records that are held -/

namespace HoldsRecords

variable {s v : State} {q : Nat} {d : Desc} {l : List Byte}

/-- No record: the descriptor ends well. -/
theorem none_left (h : HoldsRecords s v q d []) :
    Quiet (v.flushRecords q 0 1) q ∧ EndsWith (v.flushRecords q 0 1) q 0 0 0 ∧
    (v.flushRecords q 0 1).mem = s.mem ∧ (v.flushRecords q 0 1).outputs.hostWrites = s.outputs.hostWrites := by
  obtain ⟨r, hr, hrec⟩ := h.run
  rw [State.flushRecords_over hr hrec, if_pos rfl]
  exact ⟨h.quiet.finish .., State.finish_endsWith hr .., h.kept.mem, h.kept.writes⟩

/-- Room in the ring and the link up: it is written. -/
theorem written (h : HoldsRecords s v q d [l]) (hroom : (s.ring q).room l.length = true) (hup : s.host.linkUp = true)
    (hon : s.isOn 48 = true) : Quiet (v.flushRecords q 0 2) q ∧ Dispatched s (v.flushRecords q 0 2) q d ∧
      EndsWith (v.flushRecords q 0 2) q 0 0 0 ∧ RecordWritten s (v.flushRecords q 0 2) q l := by
  obtain ⟨r, hr, hrec⟩ := h.run
  rw [← h.kept.ring] at hroom
  rw [← h.kept.link] at hup
  rw [← h.kept.on] at hon
  obtain ⟨hend, hw⟩ := State.flushRecords_last_written hr hrec hroom hon hup
  refine ⟨?_, ?_, hend, hw.of_kept h.kept⟩
  · rw [State.flushRecords_last hr hrec hroom hon hup]
    have quiet : Quiet (v.ringWrite q l) q := h.quiet.congr (v.ringWrite_asking q l) (v.ringWrite_queues q l)
    exact (quiet.holding []).finish ..
  · rw [State.flushRecords_last hr hrec hroom hon hup]
    have dispatched : Dispatched s (v.ringWrite q l) q d := h.dispatched.congr (v.ringWrite_queue q l q)
    exact (dispatched.holding []).finish ..

/-- Room in the ring and the link down: the descriptor stops with 0x0D01. -/
theorem stops (h : HoldsRecords s v q d [l]) (hroom : (s.ring q).room l.length = true) (hdown : s.host.linkUp = false)
    (hon : s.isOn 48 = true) : Quiet (v.flushRecords q 0 2) q ∧ EndsWith (v.flushRecords q 0 2) q 2 0x0D01 0 ∧
      (v.flushRecords q 0 2).mem = s.mem ∧ (v.flushRecords q 0 2).outputs.hostWrites = s.outputs.hostWrites := by
  obtain ⟨r, hr, hrec⟩ := h.run
  rw [← h.kept.ring] at hroom
  rw [← h.kept.link] at hdown
  rw [← h.kept.on] at hon
  rw [State.flushRecords_stops hr hrec hroom hon hdown]
  exact ⟨(h.quiet.holding []).finish .., State.finish_endsWith (State.run_mapRun hr _) ..,
    h.kept.mem, h.kept.writes⟩

/-- No room: the descriptor waits with its record. -/
theorem waits (h : HoldsRecords s v q d [l]) (hroom : (s.ring q).room l.length = false) :
    Quiet (v.flushRecords q 0 2) q ∧
      (∃ r, ((v.flushRecords q 0 2).queue q).run = some r ∧ r.phase = .waiting ∧ r.records = [l]) ∧
      (v.flushRecords q 0 2).outputs.hostWrites = s.outputs.hostWrites := by
  obtain ⟨r, hr, hrec⟩ := h.run
  rw [← h.kept.ring] at hroom
  rw [State.flushRecords_waits hr hrec hroom]
  exact ⟨h.quiet.mapRun fun _ => rfl, ⟨_, State.run_mapRun hr _, rfl, hrec⟩, h.kept.writes⟩

end HoldsRecords

/-! ### Waiting records -/

theorem exec_hostRingWrite_waiting {s : State} {q : QueueId} {r : Run} (h : s.waitingRun q 0x60 = some r) :
    exec (.hostRingWrite q) s = .next (s.flushRecords q r.ending.code.toNat (r.records.length + 1)) := by
  change execHostRingWrite q s = _
  rw [execHostRingWrite, h]

theorem exec_hostRingWrite_idle {s : State} {q : QueueId} (h : s.waitingRun q 0x60 = none) :
    exec (.hostRingWrite q) s = .next s := by
  change execHostRingWrite q s = _
  rw [execHostRingWrite, h]

theorem State.waitingRun_run {s : State} {q opc : Nat} {r : Run} (h : s.waitingRun q opc = some r) :
    (s.queue q).run = some r := by
  unfold State.waitingRun at h
  split at h
  case h_1 hr =>
    split at h
    · cases h
      exact hr
    · cases h
  case h_2 => cases h

/-! ### The obligation -/

/-- Settles O37: the registers by the value written; a publish descriptor by its reads, which leave memory and the rings
alone, and then by what the ring and the link allow. -/
theorem hostRingsAndPublishing : Obligations.HostRingsAndPublishing := by
  unfold Obligations.HostRingsAndPublishing
  refine ⟨fun s q t v => ?registers, fun s q l => ?records⟩
  case registers =>
    intro r
    rw [exec_ridxWrite, exec_ridxWrite, exec_hostRingConfig, exec_hostRingConfig, State.ridxWrite_same, ite_self]
    refine ⟨fun hr hc hne h => ?_, fun hr hc h => ?_, rfl, fun hr hc h => ⟨?_, ?_⟩, fun hc h => ?_, fun hr => ?_⟩
    · rw [if_pos hr, State.ridxWrite_moves hc hne h]
    · rw [if_pos hr, State.ridxWrite_stale hc h]
    · rw [if_pos hr, State.ringConfig_base hc h]
      exact ⟨_, rfl, State.setRing_ring_same .., fun x hx => State.setRing_ring_other _ _ hx⟩
    · rw [if_pos hr, State.ringConfig_size hc h]
      exact ⟨_, rfl, State.setRing_ring_same .., fun x hx => State.setRing_ring_other _ _ hx⟩
    · rw [State.ringConfig_dropped h, State.ringConfig_dropped h, ite_self]
      exact ⟨rfl, rfl⟩
    · rw [hr]
      exact ⟨rfl, rfl, rfl⟩
  case records =>
    intro k pad place written
    refine ⟨?now, fun r hwait hrec hcode hroom hup hon => ?later, fun hidle => ?idle⟩
    case now =>
      intro d rows hacc hopc hecc u hlist hrows
      refine ⟨fun hnone => ?none, fun r i hone hopen hl => ?one⟩
      case none =>
        obtain ⟨v, hv, hexec⟩ := publish_none hacc hopc hecc hlist (hnone ▸ hrows)
        obtain ⟨hquiet, hend, hmem, hwrites⟩ := hv.none_left
        exact ⟨_, hexec hquiet, hend, hmem, hwrites⟩
      case one =>
        obtain ⟨v, hv, hexec⟩ := publish_one hacc hopc hecc hlist (hone ▸ hrows) hopen
        rw [← hl] at hv
        refine ⟨fun hroom hup hon => ?_, fun hroom hdown hon => ?_, fun hroom => ?_⟩
        · obtain ⟨hquiet, hdisp, hend, hw⟩ := hv.written hroom hup hon
          exact ⟨_, hexec hquiet, hdisp, hend, hw⟩
        · obtain ⟨hquiet, hend, hmem, hwrites⟩ := hv.stops hroom hdown hon
          exact ⟨_, hexec hquiet, hend, hmem, hwrites⟩
        · obtain ⟨hquiet, ⟨x, hx, hphase, hrecords⟩, hwrites⟩ := hv.waits hroom
          exact ⟨_, x, hexec hquiet, hx, hphase, hrecords, hwrites⟩
    case later =>
      have round : s.flushRecords q r.ending.code.toNat (r.records.length + 1) = s.flushRecords q 0 2 := by
        rw [hcode, hrec]
        rfl
      rw [exec_hostRingWrite_waiting hwait, round]
      exact ⟨_, rfl, State.flushRecords_last_written (State.waitingRun_run hwait) hrec hroom hon hup⟩
    case idle => exact exec_hostRingWrite_idle hidle

end Sys2Proof.Machine
